-- ==== Sys2Proof/Word.lean ====
section
/-!
DEFINITION. The word types of the XN9 (R10: little-endian; R80: 64-bit instruction words; R83: 32-bit lane registers).
-/
namespace Sys2Proof

/-- One byte of memory, the smallest location (R207). -/
abbrev Byte := BitVec 8

/-- A 16-bit element (R119, R125). -/
abbrev Half := BitVec 16

/-- A lane register (R83). -/
abbrev Word := BitVec 32

/-- A 64-bit word: a clause header, an instruction word, a pair, a device register. -/
abbrev DWord := BitVec 64

end Sys2Proof
end

