-- ==== Sys2Proof/Syntax.lean ====
section
/-!
DEFINITION. The syntax of the machine's steps: operands and fields of a core word (R80 to R87), of a Truss word (R377), of
a packet (R50, R52) and of a fabric packet (R353), who makes an access, and the one inductive of all steps.
-/
namespace Sys2Proof

/-- An operand field or `GREG` (R83). -/
inductive Opnd where
  /-- A register v0 to v239. -/
  | reg (n : Fin 240)
  /-- A latch l0 to l2 (0xF0 to 0xF2). -/
  | latch (k : Fin 3)
  /-- The constant zero, a discarding destination (0xF3). -/
  | vz
  /-- The constant of all ones (0xF4). -/
  | vo
  /-- A trap register k0 to k3 (0xF6 to 0xF9). -/
  | kreg (k : Fin 4)
  /-- An encoding of no operand: 0xF5 (index 0) and 0xFA to 0xFF (indices 1 to 6); ILLEGAL_OPERAND wherever it stands. -/
  | rsvd (e : Fin 7)
  deriving DecidableEq, Repr

/-- The operation types of field T (R82). -/
inductive Ty where
  | s32 | z32 | s64 | z64 | f32 | f64 | f16 | bf16 | h2 | b2 | e4m3 | e5m2 | s8 | z8 | s16 | z16
  deriving DecidableEq, Repr

/-- The guard of a word (R85): none, or an operand whose bit 0 is tested, inverted when `neg`. -/
inductive Guard where
  | always
  | on (neg : Bool) (o : Opnd)
  deriving DecidableEq, Repr

/-- What a hold copies (`HO`, R86). -/
inductive HoldSrc where
  | a | b | c | r
  deriving DecidableEq, Repr

/-- The hold fields `HS` and `HO` (R86). -/
inductive Hold where
  | none
  | keep (latch : Fin 3) (src : HoldSrc)
  deriving DecidableEq, Repr

/-- A word of format V3 (R80) without its opcode. -/
structure V3 where
  g : Guard
  d : Opnd
  a : Opnd
  b : Opnd
  c : Opnd
  t : Ty
  mod : BitVec 4
  h : Hold
  deriving DecidableEq, Repr

/-- A conversion word (R174): V3 with the source type in bits 17:14. -/
structure Cvt where
  g : Guard
  d : Opnd
  a : Opnd
  b : Opnd
  t : Ty
  ts : Ty
  mod : BitVec 4
  h : Hold
  deriving DecidableEq, Repr

/-- A `CBX` word (R178): V3 with the codebook slot in bits 17:14. -/
structure Cbx where
  g : Guard
  d : Opnd
  a : Opnd
  b : Opnd
  t : Ty
  slot : BitVec 4
  mod : BitVec 4
  h : Hold
  deriving DecidableEq, Repr

/-- A word of format I24 (R80). -/
structure I24 where
  g : Guard
  d : Opnd
  a : Opnd
  t : Ty
  mod : BitVec 2
  imm : BitVec 24
  deriving DecidableEq, Repr

/-- A word of format L32 (R80). -/
structure L32 where
  g : Guard
  d : Opnd
  t2 : BitVec 2
  mod : BitVec 4
  imm : BitVec 32
  deriving DecidableEq, Repr

/-- A word of format M (R80). -/
structure Mem where
  g : Guard
  d : Opnd
  a : Opnd
  x : Opnd
  w : BitVec 3
  sp : BitVec 3
  fs : Bool
  cp : BitVec 2
  sx : Bool
  off : BitVec 12
  deriving DecidableEq, Repr

/-- A word of format X (R80). -/
structure Xf where
  g : Guard
  d : Opnd
  a : Opnd
  b : Opnd
  c : Opnd
  tmpl : BitVec 6
  ch : BitVec 2
  mod : BitVec 5
  deriving DecidableEq, Repr

/-- A word of format T (R80). -/
structure Tl where
  g : Guard
  d : Opnd
  a : Opnd
  b : Opnd
  c : Opnd
  j : BitVec 3
  shape : BitVec 5
  bs : BitVec 3
  fs : Bool
  deriving DecidableEq, Repr

/-- A word of format B (R80). -/
structure Br where
  g : Guard
  off : BitVec 22
  a : Opnd
  imm : BitVec 16
  deriving DecidableEq, Repr

/-- A word of format S (R80). -/
structure Sy where
  g : Guard
  d : Opnd
  a : Opnd
  sel : BitVec 16
  deriving DecidableEq, Repr

/-- A Truss word of format TA (R377). -/
structure TA where
  d : BitVec 4
  a : BitVec 4
  b : BitVec 4
  deriving DecidableEq, Repr

/-- A Truss word of format TB (R377). -/
structure TB where
  d : BitVec 4
  a : BitVec 4
  imm : BitVec 48
  deriving DecidableEq, Repr

/-- A Truss word of format TC (R377). -/
structure TC where
  ca : BitVec 6
  cb : BitVec 6
  ra : BitVec 4
  rb : BitVec 4
  rp : BitVec 4
  xf : BitVec 4
  xo : BitVec 2
  sg : BitVec 4
  deriving DecidableEq, Repr

/-- The privilege mode of a host hart (R9, R26). -/
inductive HMode where
  | m | hs | vs | vu
  deriving DecidableEq, Repr

/-- Who makes a register access or gives a command. -/
inductive Who where
  /-- Host hart `h` (0 to 31) in a mode. -/
  | hart (h : Nat) (mode : HMode)
  /-- The management controller. -/
  | mc
  /-- The rack controller, through the sideband mailbox. -/
  | side
  /-- Truss engine `e` (0 to 15). -/
  | engine (e : Nat)
  /-- A CP thread. -/
  | cp (die thr : Nat)
  deriving DecidableEq, Repr

/-- A 64-byte packet of a queue, eight 64-bit words, with the eight words of the next ring slot (R50, R52). -/
structure Packet where
  words : List DWord
  ext : List DWord
  deriving DecidableEq, Repr

/-- A packet of the pod fabric (R353). -/
structure FabPkt where
  kind : Nat
  via : Nat
  sinc : Nat
  dinc : Nat
  seq : Nat
  tag : Nat
  sgdn : Nat
  dgdn : Nat
  hop : Nat
  opx : Nat
  pa : Nat
  edge : Nat
  atype : Nat
  data : List Byte
  deriving DecidableEq, Repr

/-- A fabric packet as it arrives: the port by which it comes, and the packet. -/
structure Arrival where
  port : Nat
  pk : FabPkt
  deriving DecidableEq, Repr

/-- A frame of an Ethernet port (R368): the port, whether MACsec authenticates it, its length in bytes, its VLAN tag, and its destination UDP
port. -/
structure Wire where
  port : Nat
  auth : Bool
  len : Nat
  vlan : Option Nat
  udp : Nat
  deriving DecidableEq, Repr

/-- A datagram on the package Ethernet (R65, R368): the frame that carries it, and its payload. -/
structure Datagram where
  wire : Wire
  bytes : List Byte
  deriving DecidableEq, Repr

/-- A power intent as it arrives (R365): by a fabric port (below 32), or as a datagram, with the frame that carries it. -/
structure PintIn where
  port : Nat
  wire : Wire
  pk : FabPkt
  deriving DecidableEq, Repr

/-- A flit whose CRC is right once the FEC has corrected some of its symbols (R349, R350). -/
structure RxFlit where
  corrected : Nat
  bytes : List Byte
  deriving DecidableEq, Repr

/-- Where an access of device register space lies: its address and its width in bytes (R15). -/
structure RegSpan where
  addr : Nat
  width : Nat
  deriving DecidableEq, Repr

/-- What the far end of a link says at training (R352): its global device number, incarnation and port number. -/
structure Ident where
  gdn : Nat
  inc : Nat
  port : Nat
  deriving DecidableEq, Repr

/-- What arrives on a RoCEv2 queue pair of a schedule slot (R373, R385, R386). -/
inductive RoceOp where
  /-- An RDMA WRITE at a virtual address of the slot's context, in elements of `e` bytes. -/
  | write (addr : Nat) (e : Nat) (data : List Byte)
  /-- An RDMA READ. -/
  | read (addr len : Nat)
  /-- A SEND of 8 bytes that carries a signal number and a count, with the sender's edge id. -/
  | send (sig count edge : Nat)
  /-- The acknowledgement of this slot's operation `k`. -/
  | ack (k : Nat)
  /-- The data of this slot's READ `k`. -/
  | resp (k : Nat) (data : List Byte)
  /-- The failure of this slot's operation `k`, with a code of R359. -/
  | fail (k code : Nat)
  deriving DecidableEq, Repr

/-- One reading of the sensors (R337, R418): the hottest points in 1/16 degree, of the four compute dies, the four sill dies and the twelve stacks,
the charge of each compute die, the 48 V input's voltage and current, and the power of each regulator rail. -/
structure Sensors where
  temps : List Nat := []
  charge : List Nat := []
  volts : Nat := 0
  amps : Nat := 0
  rails : List Nat := []
  deriving DecidableEq, Repr

/-- What a queue pair receives: the frame, and the operation or answer that it carries (R368). -/
structure RoceIn where
  wire : Wire
  op : RoceOp
  deriving DecidableEq, Repr

/-- An HBM4 stack position as the firmware finds it when it trains it (R407): whether it holds a stack to JESD270-4 that trains, its size in GiB, its
interface in bits, its rate per pin in Gb/s, and its part number. -/
structure Stack where
  trains : Bool
  gib : Nat
  bits : Nat
  rate : Nat
  part : Nat
  deriving DecidableEq, Repr

/-- What the firmware writes to the device's registers before its ports are enabled (R407, step 3): `DEVID`, the 96 words of the home table, `PWRCFG`
and `PGRP`. -/
structure BootCfg where
  devid : DWord
  home : List DWord
  pwrcfg : DWord
  pgrp : DWord
  deriving DecidableEq, Repr

/-- A memory access of a host hart (R210). -/
inductive HartAcc where
  | load (addr width : Nat)
  | store (addr width : Nat) (val : DWord)
  /-- An atomic operation: `op` 0 add, 1 swap, 2 and, 3 or, 4 xor, 5 min, 6 max, 7 minu, 8 maxu. -/
  | amo (op addr width : Nat) (val : DWord)
  | lr (addr width : Nat)
  | sc (addr width : Nat) (val : DWord)
  deriving DecidableEq, Repr

/-- A memory access of a hart, with the mode in which the hart makes it (R15, R210). -/
structure HartOp where
  mode : HMode
  acc : HartAcc
  deriving DecidableEq, Repr

/-- The steps of spec/opcode_table.json, one constructor per row: the operations and events of the device and its
agents, the words of a compute core (R89), the words of a Truss engine (R377), and last the commands whose operands lie in
registers of the state. -/
inductive Instr where
  /-- REGISTER_WRITE (R15): A write to a package, context-window or other device register that has no row of its own stores its writable fields, or is ignored or dropped as the access rules give. -/
  | registerWrite (who : Who) (addr : Nat) (width : Nat) (val : DWord)
  /-- RC_COUNTER_READ (R12): A read of a read-clear counter returns its value and then clears it. -/
  | rcCounterRead (who : Who) (span : RegSpan)
  /-- DESTROY_DRAIN_COMPLETE (R32): Once no fabric request of a Draining context is outstanding, its shadow contents are discarded and the context becomes Free. -/
  | destroyDrainComplete (cid : Nat)
  /-- CTX_DISPATCH (R33): The lead CP chooses the context of a partition to dispatch or restore, or pre-empts the Running context for a higher-priority demand. -/
  | ctxDispatch (dies : Nat)
  /-- SLICE_EXPIRE (R33): A Running context's time slice expires, and the context is pre-empted or its slice restarts. -/
  | sliceExpire (cid : Nat)
  /-- PTMO_EXPIRE (R36): The pre-emption timeout elapses before the save completes, so the context becomes Faulted with FCAUSE 1 and the partition is reset. -/
  | ptmoExpire (cid : Nat)
  /-- PREEMPT_TAKE (R34): A thread whose flags are zero takes a posted PREEMPT at its clause boundary or blocked slot and enters its handler to be saved. -/
  | preemptTake (tid : Nat)
  /-- SAVE_COMPLETE (R34): After the threads and scratchpads are saved, the lead CP writes the grid records and area header, fences, sets Saved and clears CBUSY. -/
  | saveComplete (cid : Nat)
  /-- CTX_RESTORE (R37): The lead CP places the saved blocks of a context and enters each thread's handler with PREEMPT to reload it. -/
  | ctxRestore (cid : Nat)
  /-- QUEUE_ENABLE (R48): The QCMD ENABLE command makes a Disabled queue Idle when its context allows it, and otherwise reports BADSTATE. -/
  | queueEnable (who : Who) (q : Nat)
  /-- QUEUE_DISABLE (R48): The QCMD DISABLE command unmaps the queue if needed and makes it Disabled, discarding nothing. -/
  | queueDisable (who : Who) (q : Nat)
  /-- RESET_QUEUE (R69): A rung-1 reset, from QCMD RESET or RSTCTL, stops the queue, discards unbegun packets and pending WAITs, and sets RIDX to WIDX and the state to Idle. -/
  | resetQueue (who : Who) (qcmd : Bool) (q : Nat)
  /-- RESET_ENGINE (R69): A rung-2 reset faults the queues mapped on a CP and restarts its microcode, or faults the schedule slots bound to a Truss engine. -/
  | resetEngine (who : Who) (tgt : Nat)
  /-- RESET_PARTITION (R69): A rung-3 reset clears a partition's cores, CPs, engines and L2 slices, faults its Running context and resets its queues. -/
  | resetPartition (who : Who) (tgt : Nat)
  /-- RESET_DIE (R69): A rung-4 reset acts as rung 3 on every partition that includes the named die. -/
  | resetDie (who : Who) (tgt : Nat)
  /-- RESET_FUNCTION (R69): A rung-5 reset destroys every context of a tenant function and zeroes every frame and page-table page that those contexts map. -/
  | resetFunction (who : Who) (tgt : Nat)
  /-- RESET_DEVICE (R69): A rung-6 reset resets everything but the management controller and increments the device incarnation. -/
  | resetDevice (who : Who)
  /-- DOORBELL_WRITE (R47): A doorbell write sets WIDX, faults the queue with BADIDX on a bad index, or is ignored for a Disabled or Faulted queue. -/
  | doorbellWrite (who : Who) (q : Nat) (val : DWord)
  /-- INGRESS_KEY_WRITE (R65): A write of ING_KEY0 to ING_KEY3 installs key material in the ingress key table for the queue named by ING_KSEL. -/
  | ingressKeyWrite (who : Who) (n : Nat) (val : DWord)
  /-- COMMAND_FRAME (R66): An arriving command frame is checked in order and either dropped and counted, or decrypted into the ring, after which ISEQ and WIDX advance. -/
  | commandFrame (frame : Datagram)
  /-- QUEUE_MAP (R59): A free CP thread slot takes the best candidate queue, restores its fields, and re-tests its WAIT or begins its next packet. -/
  | queueMap (q : Nat) (die : Nat) (thr : Nat)
  /-- QUEUE_UNMAP (R60): The CP unmaps a queue, writing its fields back to the descriptor, latching wakes as WP, and freeing the thread slot. -/
  | queueUnmap (q : Nat) (disable : Bool)
  /-- NOP_PACKET (R52): A NOP packet begins and completes with no effect other than its completion signal. -/
  | nopPacket (q : Nat) (p : Packet)
  /-- LAUNCH (R303): A LAUNCH packet begins: it receives a grid number, is checked, has its parameters snapshotted and queues its blocks for placement. -/
  | launch (q : Nat) (p : Packet)
  /-- WAIT_PACKET (R55): A WAIT packet reads its signal and completes, or arms a watch and blocks the CP thread. -/
  | waitPacket (q : Nat) (p : Packet)
  /-- WATCH_WAKE (R55): A write that reaches a watched signal wakes the CP thread, which re-reads the signal and completes the WAIT when it is satisfied. -/
  | watchWake (q : Nat)
  /-- SIGNAL (R52): A SIGNAL packet sets, adds to or maxes a signal word. -/
  | signal (q : Nat) (p : Packet)
  /-- COPY_PACKET (R53): A COPY packet starts an engine copy on the partition's BTU channels. -/
  | copyPacket (q : Nat) (p : Packet)
  /-- LOADSCHED (R373): A LOADSCHED packet loads and checks a schedule into a slot, binds it to an engine and opens its queue pairs. -/
  | loadsched (q : Nat) (p : Packet)
  /-- RUNSCHED (R374): A RUNSCHED packet arms a schedule slot, or waits until the slot is Done. -/
  | runsched (q : Nat) (p : Packet)
  /-- DEPEND (R62): A DEPEND packet declares handle accesses and completes when its ordering is met. -/
  | depend (q : Nat) (p : Packet)
  /-- STEPMARK (R400): A STEPMARK packet delivers a step mark carrying the CP thread's edge id to the Scribe. -/
  | stepmark (q : Nat) (p : Packet)
  /-- PUBLISH (R285): A PUBLISH packet swaps every Shadowed page of its handle at one place in the order. -/
  | publish (q : Nat) (p : Packet)
  /-- COLLECT (R307): A COLLECT packet checks its code object and defines or replaces a collector node. -/
  | collect (q : Nat) (p : Packet)
  /-- BLOCK_PLACE (R101): The placement distributor places the next block or block cluster on a core, waking a gated core cluster if none fits, and stores the parameter snapshot. -/
  | blockPlace (gid : Nat)
  /-- CLUSTER_WAKE_DONE (R101): The 1.5 µs wake of a gated core cluster ends and waiting blocks may be placed on it. -/
  | clusterWakeDone (cl : Nat)
  /-- CLUSTER_GATE (R336): A core cluster that has held no block for 10 µs, with idle BTUs, is gated when the slew bound allows it. -/
  | clusterGate (cl : Nat)
  /-- BLOCK_RETIRE (R305): A block whose non-helper threads have exited, whose flags are zero and whose transfers are done retires and adds 1 to the grid's retired-block counter. -/
  | blockRetire (bid : Nat)
  /-- CLAUSE_ISSUE (R103): A PC table entry forms an issue group, the clause header is checked, the charge is paid from the core bucket, and the group begins its clause. -/
  | clauseIssue (core : Nat)
  /-- HANDLER_ENTER (R115): Once all its flags are zero, a trapping thread enters its S-level handler at TVEC with its trap state set. -/
  | handlerEnter (tid : Nat)
  /-- HALT_TAKE (R117): A thread named by a halt request takes it at its clause boundary, or at once when Blocked, and either stops or traps with HALT. -/
  | haltTake (tid : Nat)
  /-- SLEEP_WAKE (R193): A sleeping thread's delay elapses and it becomes Ready. -/
  | sleepWake (tid : Nat)
  /-- MEMORY_RETURN (R232): The data of a load, atomic or CCTL return, are written to the destination and decrement the flag, or leave a deferred error pending. -/
  | memoryReturn (tid : Nat) (k : Nat)
  /-- MMA_COMPLETE (R295): The matrix unit finishes an operation, writes each signer's accumulator fragment and decrements its flag. -/
  | mmaComplete (core : Nat)
  /-- BTU_ELEMENT (R279): A BTU channel performs one element operation of a transfer and then its delivery to the barrier object. -/
  | btuElement (core : Nat) (ch : Nat) (n : Nat)
  /-- APERTURE_START (R283): A write of AP_GO without the cancel bit checks and queues a transfer on the channel using the staged registers. -/
  | apertureStart (who : Who) (core : Nat) (ch : Nat) (val : DWord)
  /-- APERTURE_CANCEL (R283): A write of AP_GO with the cancel bit cancels the channel as BXCAN does. -/
  | apertureCancel (who : Who) (core : Nat) (ch : Nat) (val : DWord)
  /-- REC_ACCEPT (R308): The CP accepts a REC record into its node's buffer, launching a collector gang at 32 records or counting toward a bound schedule's arming. -/
  | recAccept (k : Nat)
  /-- COLLECT_TIMER (R308): A collector node's timer lapses and the gather is launched as a gang. -/
  | collectTimer (dies : Nat) (node : Nat)
  /-- MIGRATE_SWITCH (R264): The copy of a migrating page ends, the translation switches to the new frame, and the held writes proceed. -/
  | migrateSwitch (asid : Nat) (page : Nat)
  /-- HOMECFG_WRITE (R224): A write of the home table writes back and drops the L2 lines of each changed region and applies the new die masks. -/
  | homecfgWrite (who : Who) (n : Nat) (val : DWord)
  /-- RRCTL_WRITE (R245): A write of a range control register sets the range, or refuses V = 1 when the range is empty or over-reserves ways. -/
  | rrctlWrite (who : Who) (cid : Nat) (n : Nat) (val : DWord)
  /-- PRICE_DATA_WRITE (R324): A write of PRICE_DATA at F sets the price-table entry named by PRICE_IDX, and the new price reaches every core within 1 µs. -/
  | priceDataWrite (who : Who) (val : DWord)
  /-- CLKLOCK_WRITE (R341): A write of a die's lock register requests or releases a clock lock, stopping issue on the die for the relock. -/
  | clklockWrite (who : Who) (die : Nat) (val : DWord)
  /-- CLOCK_RELOCK_DONE (R341): The die's relock ends, the lock takes effect or ends, and issue resumes. -/
  | clockRelockDone (die : Nat)
  /-- GOVERNOR_INTERVAL (R331): At each 1 µs interval the governor computes demand, moves PSET within the slew bound, sets the fill rate and updates PWRSTAT. -/
  | governorInterval (u : Nat)
  /-- BALLAST_HINT_FETCH (R334): Ballast fetches one line of a queued prefetch hint when the offered tokens cover it. -/
  | ballastHintFetch (die : Nat)
  /-- BALLAST_SCRUB_LINE (R334): Ballast scrubs one line, by targeted or patrol scrub, correcting correctable errors. -/
  | ballastScrubLine (die : Nat)
  /-- SELF_TEST_STEP (R335): An idle awake core runs one self-test step as ballast, and a failure removes it from service. -/
  | selfTestStep (core : Nat) (ok : Bool)
  /-- DROOP_DETECT (R338): A die's supply falls below the droop floor plus 20 mV, so its clock is stretched and DROOPCNT counts it. -/
  | droopDetect (die : Nat)
  /-- DROOP_RECOVER (R338): The supply stays above the floor plus 30 mV for 100 ns and the clock stretch ends. -/
  | droopRecover (die : Nat)
  /-- SENSOR_SAMPLE (R418): Every 50 µs the firmware samples the sensors and sets the target thermal step. -/
  | sensorSample (sn : Sensors)
  /-- PORT_ENABLE (R352): A write of a port's EN bit starts training when set, or disables the port when cleared. -/
  | portEnable (who : Who) (p : Nat) (val : DWord)
  /-- LINK_TRAIN_END (R352): Training of a port ends: Up, Miswired, or a failure that leads to Failed on the third. -/
  | linkTrainEnd (p : Nat) (id : Option Ident)
  /-- LOSS_OF_SIGNAL (R352): An Up port loses signal and enters Retraining. -/
  | lossOfSignal (p : Nat)
  /-- FLIT_RECEIVE (R350): A port receives a flit, checks its CRC and sequence, and accepts it or refuses it for go-back-N replay. -/
  | flitReceive (p : Nat) (seq : Nat) (flit : Option RxFlit)
  /-- FABRIC_REQUEST_ARRIVE (R357): A request packet takes custody at a device and is forwarded, or at its destination is checked for incarnation and performed in SEQ order. -/
  | fabricRequestArrive (a : Arrival)
  /-- FABRIC_RESPONSE_ARRIVE (R358): An LDRESP arrives at the source and completes its request. -/
  | fabricResponseArrive (a : Arrival)
  /-- CUSTODY_ACK (R356): A custody ACK from the next hop releases the sender's copy of a packet. -/
  | custodyAck (a : Arrival)
  /-- END_TO_END_ACK (R357): An end-to-end ACK completes a request at the source, or lets the destination discard its stored response. -/
  | endToEndAck (a : Arrival)
  /-- NAK_ARRIVE (R358): A NAK arrives at the source, which resends on LINKDOWN within RSND or ends the request with a final code. -/
  | nakArrive (a : Arrival)
  /-- CUSTODY_TIMEOUT (R356): The wait for the next hop's ACK elapses, and the holder replays once, then NAKs a request or reroutes a response. -/
  | custodyTimeout (tag : Nat)
  /-- SOURCE_DEADLINE (R358): A request has no response within DLINE, so probes are sent, and with no answer by twice DLINE it ends with UNREACH. -/
  | sourceDeadline (tag : Nat)
  /-- PINT_ARRIVE (R365): A PINT packet or datagram delivers a power intent, which is recorded or discarded by group. -/
  | pintArrive (a : PintIn)
  /-- EDGEQ_ARRIVE (R399): An EDGEQ asks this device's Scribe for an edge record and is answered with an LDRESP. -/
  | edgeqArrive (a : Arrival)
  /-- SIGNAL_INCREMENT_ARRIVE (R386): A Truss signal increment arrives at its slot's signal window and is counted, or is refused with NAK code 5. -/
  | signalIncrementArrive (a : Arrival)
  /-- ROCE_RECEIVE (R368): A RoCEv2 operation of a Truss queue pair arrives from another pod and writes memory or carries a signal increment. -/
  | roceReceive (slot : Nat) (rank : Nat) (op : RoceIn)
  /-- TIME_SYNC (R366): Every 1 ms the links exchange package time to keep each member aligned to the time root. -/
  | timeSync (ns : Nat)
  /-- SCHEDULE_START (R369): A free Truss engine takes its earliest-armed schedule, which begins Running. -/
  | scheduleStart (eng : Nat)
  /-- TRUSS_WAKE (R386): The condition of a Waiting schedule's WAIT, BAR or RECV is met and the schedule runs again. -/
  | trussWake (slot : Nat)
  /-- SCHEDULE_DONE (R387): After FIN's remote operations are acknowledged, the optional publish is made, the slot becomes Done and the arming RUNSCHED completes. -/
  | scheduleDone (slot : Nat)
  /-- SCHEDULE_WATCHDOG (R376): A schedule Waiting longer than TWDOG faults with reason 9. -/
  | scheduleWatchdog (slot : Nat)
  /-- STEP_MARK_ARRIVE (R400): A step mark reaches the lead die's Scribe and opens a step or closes the open one. -/
  | stepMarkArrive (cid : Nat) (step : DWord) (edge : Nat) (thr : Nat)
  /-- CRITICAL_PATH_WALK (R401): The Scribe walks a closed step's edges back to its start and writes the step report. -/
  | criticalPathWalk (cid : Nat)
  /-- RECOVERY_IMAGE_PUSH (R410): The recovery loader receives an image over TFTP, checks it and writes it to flash before a reset, or discards it. -/
  | recoveryImagePush (bytes : List Byte)
  /-- IADD (R141): Adds two integers, wrapping or saturating. -/
  | iadd (f : V3)
  /-- ISUB (R141): Subtracts two integers, wrapping or saturating. -/
  | isub (f : V3)
  /-- IADDC (R142): Adds two 32-bit words and a carry bit, writing the sum and carry-out to a pair. -/
  | iaddc (f : V3)
  /-- ISUBB (R142): Subtracts with borrow, writing the difference and borrow-out to a pair. -/
  | isubb (f : V3)
  /-- INEG (R141): Negates a signed integer, wrapping or saturating. -/
  | ineg (f : V3)
  /-- IABS (R141): Takes the absolute value of a signed integer, wrapping or saturating. -/
  | iabs (f : V3)
  /-- IMUL (R143): Writes the low W bits of a product. -/
  | imul (f : V3)
  /-- IMULH (R143): Writes the high W bits of the exact product. -/
  | imulh (f : V3)
  /-- IMAD (R143): Writes the low W bits of a × b + c. -/
  | imad (f : V3)
  /-- IMADW (R143): Writes a 64-bit a × b + c from 32-bit factors and a 64-bit addend. -/
  | imadw (f : V3)
  /-- IDIV (R144): Divides with truncation, with defined results for zero and overflow. -/
  | idiv (f : V3)
  /-- IREM (R144): Writes the remainder of a truncating division. -/
  | irem (f : V3)
  /-- IMIN (R145): Writes the smaller of two integers. -/
  | imin (f : V3)
  /-- IMAX (R145): Writes the larger of two integers. -/
  | imax (f : V3)
  /-- ICMP (R146): Compares two integers under a condition and writes 1 or 0. -/
  | icmp (f : V3)
  /-- ISEL (R147): Selects a or b by bit 0 of C. -/
  | isel (f : V3)
  /-- AND (R148): Bitwise AND. -/
  | andL (f : V3)
  /-- OR (R148): Bitwise OR. -/
  | orL (f : V3)
  /-- XOR (R148): Bitwise XOR. -/
  | xorL (f : V3)
  /-- ANDN (R148): Writes a AND NOT b. -/
  | andn (f : V3)
  /-- ORN (R148): Writes a OR NOT b. -/
  | orn (f : V3)
  /-- SHL (R149): Shifts left by an unmasked amount. -/
  | shl (f : V3)
  /-- SHR (R149): Shifts right logically by an unmasked amount. -/
  | shr (f : V3)
  /-- SAR (R149): Shifts right arithmetically by an unmasked amount. -/
  | sar (f : V3)
  /-- ROTL (R149): Rotates left by n mod W. -/
  | rotl (f : V3)
  /-- FUNL (R150): Funnel-shifts the 64-bit concatenation of A and B left and writes the high word. -/
  | funl (f : V3)
  /-- BFX (R151): Extracts a bit field, sign- or zero-extended. -/
  | bfx (f : V3)
  /-- BFI (R151): Inserts a bit field of b into a. -/
  | bfi (f : V3)
  /-- POPC (R152): Counts the 1 bits. -/
  | popc (f : V3)
  /-- CLZ (R152): Counts the leading zero bits. -/
  | clz (f : V3)
  /-- CTZ (R152): Counts the trailing zero bits. -/
  | ctz (f : V3)
  /-- BREV (R152): Reverses the bits. -/
  | brev (f : V3)
  /-- PERMB (R153): Permutes, complements or clears bytes of an eight-byte source. -/
  | permb (f : V3)
  /-- LEA (R156): Forms a 64-bit address from a base pair and a shifted index. -/
  | lea (f : V3)
  /-- MOV (R154): Copies bits unchanged. -/
  | mov (f : V3)
  /-- MOVI (R155): Writes a 32-bit immediate, zero-extended to a pair for .z64. -/
  | movi (f : L32)
  /-- MOVH (R155): Writes a 32-bit immediate into the high register of a pair. -/
  | movh (f : L32)
  /-- IADDI (R157): Adds a sign-extended immediate, wrapping or saturating. -/
  | iaddi (f : I24)
  /-- ICMPI (R146): Compares with a sign-extended immediate and writes 1 or 0. -/
  | icmpi (f : I24)
  /-- ANDI (R157): ANDs with a sign-extended immediate. -/
  | andi (f : I24)
  /-- ORI (R157): ORs with a sign-extended immediate. -/
  | ori (f : I24)
  /-- XORI (R157): XORs with a sign-extended immediate. -/
  | xori (f : I24)
  /-- SHLI (R157): Shifts left by an immediate. -/
  | shli (f : I24)
  /-- SHRI (R157): Shifts right logically by an immediate. -/
  | shri (f : I24)
  /-- SARI (R157): Shifts right arithmetically by an immediate. -/
  | sari (f : I24)
  /-- FADD (R162): Adds with one rounding. -/
  | fadd (f : V3)
  /-- FSUB (R162): Subtracts with one rounding. -/
  | fsub (f : V3)
  /-- FMUL (R162): Multiplies with one rounding. -/
  | fmul (f : V3)
  /-- FFMA (R162): Computes a × b + c with one rounding. -/
  | ffma (f : V3)
  /-- FMIN (R164): Selects the minimumNumber of two operands. -/
  | fmin (f : V3)
  /-- FMAX (R164): Selects the maximumNumber of two operands. -/
  | fmax (f : V3)
  /-- FMINM (R164): Selects the IEEE minimum, propagating NaN. -/
  | fminm (f : V3)
  /-- FMAXM (R164): Selects the IEEE maximum, propagating NaN. -/
  | fmaxm (f : V3)
  /-- FCMP (R165): Compares floating-point values under an ordered or unordered condition. -/
  | fcmp (f : V3)
  /-- FCLASS (R166): Writes a one-hot class mask of a value. -/
  | fclass (f : V3)
  /-- FRND (R167): Rounds to an integral value in the same format. -/
  | frnd (f : V3)
  /-- FSCALE (R168): Computes a × 2^n with one rounding. -/
  | fscale (f : V3)
  /-- FEXPX (R169): Writes the exact binary exponent of a value. -/
  | fexpx (f : V3)
  /-- FDIV (R170): Divides, correctly rounded. -/
  | fdiv (f : V3)
  /-- FSQRT (R170): Takes the square root, correctly rounded. -/
  | fsqrt (f : V3)
  /-- FRCP (R170): Takes the reciprocal, correctly rounded. -/
  | frcp (f : V3)
  /-- FRSQ (R170): Takes the reciprocal square root, correctly rounded. -/
  | frsq (f : V3)
  /-- FEXP2 (R171): Computes 2^a, correctly rounded. -/
  | fexp2 (f : V3)
  /-- FLOG2 (R171): Computes log2 a, correctly rounded. -/
  | flog2 (f : V3)
  /-- FSINP (R171): Computes sin(π a), correctly rounded. -/
  | fsinp (f : V3)
  /-- FCOSP (R171): Computes cos(π a), correctly rounded. -/
  | fcosp (f : V3)
  /-- FTANH (R171): Computes tanh a, correctly rounded. -/
  | ftanh (f : V3)
  /-- FDOT2 (R173): Adds a two-term dot product to an FP32 value as one exact sum rounded once. -/
  | fdot2 (f : V3)
  /-- CVT (R175): Converts a value between any two formats with rounding and saturation control. -/
  | cvt (f : Cvt)
  /-- CVTP (R176): Narrows two or four values into one packed register. -/
  | cvtp (f : Cvt)
  /-- CVTQ (R177): Widens the packed elements of one register into two or four registers. -/
  | cvtq (f : Cvt)
  /-- CBX (R178): Expands eight CB4 codes through the gang's codebook slot into BF16 pairs. -/
  | cbx (f : Cbx)
  /-- SHFL (R181): Moves values between lanes by pick, rotate, exchange or slide, with fill. -/
  | shfl (f : V3)
  /-- QSWAP (R182): Exchanges values within a quad. -/
  | qswap (f : V3)
  /-- QBC (R182): Broadcasts one lane's value within each quad. -/
  | qbc (f : V3)
  /-- VOTE (R183): Writes a vote summary or mask over the participants. -/
  | vote (f : V3)
  /-- MATCH (R184): Writes peers, leader, rank or kind count of equal values among participants. -/
  | matchV (f : V3)
  /-- XRED (R185): Reduces a value over the participants, with exact floating-point sums. -/
  | xred (f : V3)
  /-- XSCAN (R186): Writes each lane an inclusive or exclusive scan over participants. -/
  | xscan (f : V3)
  /-- LMASK (R187): Writes a lane mask of active, group, live, relative or participant lanes. -/
  | lmask (f : V3)
  /-- LD (R232): Checks and issues a load from global, scratchpad or cluster space, counting a flag. -/
  | ld (f : Mem)
  /-- ST (R232): Checks and performs a store. -/
  | st (f : Mem)
  /-- ATOM (R234): Performs an atomic read-modify-write and returns the old value. -/
  | atom (f : Mem)
  /-- ARED (R234): Performs an atomic read-modify-write with no return. -/
  | ared (f : Mem)
  /-- FLD (R235): Issues a load to another device over the fabric. -/
  | fld (f : Mem)
  /-- FST (R236): Issues a fabric store followed by an optional flag increment at the target. -/
  | fst (f : Mem)
  /-- FATOM (R235): Issues an atomic over the fabric and returns the old value. -/
  | fatom (f : Mem)
  /-- MCST (R237): Stores to every member of a multicast group, each with an optional flag increment. -/
  | mcst (f : Mem)
  /-- TLD (R240): Loads a lane's fragment of a tile through a tile descriptor, filling clipped elements. -/
  | tld (f : Mem)
  /-- TST (R240): Stores a lane's fragment of a tile through a tile descriptor. -/
  | tst (f : Mem)
  /-- PREF (R241): Prefetches a line toward the core, never trapping. -/
  | pref (f : Mem)
  /-- CCTL (R247): Locks or unlocks a line at L2 or LLC under the context's quota and returns a status. -/
  | cctl (f : Mem)
  /-- FENCE (R215): Stalls the group until the selected kinds of earlier operation are performed. -/
  | fence (f : Mem)
  /-- REC (R243): Delivers a record with payload and edge id to a collector node. -/
  | recW (f : Mem)
  /-- BINIT (R272): Initialises a barrier object with an arrival count. -/
  | binit (f : Xf)
  /-- BARV (R272): Arrives at a barrier object and returns the phase token. -/
  | barv (f : Xf)
  /-- BARX (R272): Arrives and adds expected bytes to a barrier object. -/
  | barx (f : Xf)
  /-- BDROP (R272): Arrives and lowers the expected arrivals permanently. -/
  | bdrop (f : Xf)
  /-- BWAIT (R273): Proceeds when the phase differs from the token, otherwise blocks on a watch. -/
  | bwait (f : Xf)
  /-- BTEST (R273): Tests a barrier object's phase against a token without blocking. -/
  | btest (f : Xf)
  /-- BXC (R277): Checks a template and starts a box copy into scratchpad, posting its bytes. -/
  | bxc (f : Xf)
  /-- BXS (R277): Checks a template and starts a box store from scratchpad to global memory through shadow. -/
  | bxs (f : Xf)
  /-- TMPL (R276): Writes one 32-byte part of a transfer template. -/
  | tmpl (f : Xf)
  /-- PUB (R285): Publishes a handle's Shadowed pages at one place in the order. -/
  | pub (f : Xf)
  /-- BXCAN (R282): Cancels every transfer on a channel and delivers their undelivered bytes. -/
  | bxcan (f : Xf)
  /-- MMA (R295): Signs a join round for a matrix multiply-accumulate, blocking until every member has signed. -/
  | mma (f : Tl)
  /-- JSET (R293): Declares a join register's member set and releases blocked signers. -/
  | jset (f : Tl)
  /-- JCLR (R293): Makes a join register Undeclared and releases blocked signers. -/
  | jclr (f : Tl)
  /-- CBLD (R299): Loads a codebook slot from lanes 0 to 7. -/
  | cbld (f : Tl)
  /-- NOP (R91): Does nothing. -/
  | nop (f : Sy)
  /-- BRA (R189): Branches PC-relative. -/
  | bra (f : Br)
  /-- BRX (R190): Jumps to a 64-bit register target. -/
  | brx (f : V3)
  /-- CALL (R189): Branches and writes the link address to a pair. -/
  | call (f : Br)
  /-- RET (R190): Returns to a 64-bit register target. -/
  | ret (f : V3)
  /-- EXIT (R191): Ends the thread's issue and makes it Exited. -/
  | exit (f : Sy)
  /-- YIELD (R192): Defers the thread from its gang's frontier. -/
  | yield (f : Sy)
  /-- SLEEP (R193): Blocks the thread for a number of nanoseconds. -/
  | sleep (f : I24)
  /-- TRAP (R194): Completes and enters the handler with SOFT and the immediate. -/
  | trap (f : Sy)
  /-- BKPT (R194): Enters the handler with BKPT, or halts in stop form when routed to the debugger. -/
  | bkpt (f : Sy)
  /-- STEP (R195): Delivers a step mark with the thread's edge id to the Scribe. -/
  | step (f : Sy)
  /-- TRACEW (R196): Writes a user record to the context's trace buffer. -/
  | tracew (f : V3)
  /-- S2V (R198): Reads a special value into a register. -/
  | s2v (f : Sy)
  /-- V2S (R199): Writes a trap-state register of the executing thread. -/
  | v2s (f : Sy)
  /-- RFT (R201): Returns from the handler to TPC, reloading the latches and leaving the thread Ready or Halted. -/
  | rft (f : Sy)
  /-- KSWAP (R202): Exchanges a register with a trap register. -/
  | kswap (f : V3)
  /-- TSR (R203): Reads a thread-state word, latch shadow, join register or codebook word. -/
  | tsr (f : Sy)
  /-- TSW (R203): Writes a thread-state word, latch shadow, join register or codebook word. -/
  | tsw (f : Sy)
  /-- HALTG (R205): Posts a halt request to threads of the gang, block, grid or context. -/
  | haltg (f : Sy)
  /-- TLBI (R206): Removes translations package-wide by page, ASID or all. -/
  | tlbi (f : V3)
  /-- TOKQ (R342): Reads a token, price or governor value. -/
  | tokq (f : Sy)
  /-- INTENT (R343): Posts a power intent to this device and the power group. -/
  | intent (f : V3)
  /-- BALLAST (R344): Queues a prefetch hint or targeted scrub as ballast, or drops the context's hints. -/
  | ballast (f : V3)
  /-- TRUSS_NOP (R379): Does nothing. -/
  | trussNop (f : TB)
  /-- TRUSS_MOVI (R379): Writes an immediate to a schedule register. -/
  | trussMovi (f : TB)
  /-- TRUSS_ADDI (R379): Adds an immediate to a schedule register. -/
  | trussAddi (f : TB)
  /-- TRUSS_ADD (R379): Adds two schedule registers. -/
  | trussAdd (f : TA)
  /-- TRUSS_MULI (R379): Multiplies a schedule register by an immediate. -/
  | trussMuli (f : TB)
  /-- TRUSS_PEER (R379): Computes a rank modulo the communicator size. -/
  | trussPeer (f : TB)
  /-- TRUSS_PARAM (R379): Reads a parameter, the rank, size, slot, device number or time. -/
  | trussParam (f : TB)
  /-- TRUSS_CHUNK (R381): Sets a chunk table entry from registers. -/
  | trussChunk (f : TC)
  /-- TRUSS_BRA (R380): Branches within the schedule. -/
  | trussBra (f : TB)
  /-- TRUSS_BNZ (R380): Branches when a register is nonzero. -/
  | trussBnz (f : TB)
  /-- TRUSS_LOOP (R380): Decrements a register and branches while it is nonzero. -/
  | trussLoop (f : TB)
  /-- TRUSS_WAIT (R386): Consumes a signal count or waits until it is reached. -/
  | trussWait (f : TB)
  /-- TRUSS_SIG (R386): Adds a count to a peer's signal counter. -/
  | trussSig (f : TB)
  /-- TRUSS_BAR (R386): Waits until every rank completes the next barrier. -/
  | trussBar (f : TB)
  /-- TRUSS_FIN (R387): Ends the run, optionally publishing a handle once remote operations are acknowledged. -/
  | trussFin (f : TB)
  /-- TRUSS_TRAP (R380): Faults the slot with reason 8 and records the immediate. -/
  | trussTrap (f : TB)
  /-- TRUSS_SEND (R382): Sends a local piece to a peer's window with a signal. -/
  | trussSend (f : TC)
  /-- TRUSS_RECV (R382): Reads a peer's window piece into a local piece. -/
  | trussRecv (f : TC)
  /-- TRUSS_RED (R384): Reduces one local piece into another, rounding once per element. -/
  | trussRed (f : TC)
  /-- TRUSS_REDSEND (R384): Reduces locally and sends the result to a peer's window with a signal. -/
  | trussRedsend (f : TC)
  /-- TRUSS_COPY (R382): Copies one local piece to another. -/
  | trussCopy (f : TC)
  /-- TRUSS_MCAST (R382): Sends a local piece to a multicast window with a signal at every member. -/
  | trussMcast (f : TC)
  /-- MATRIX_UNIT_START (R288): When the operation in progress has held the matrix unit for its 2 cycles, the unit starts the next waiting operation, freeing a place so that a round left Issuing may issue. -/
  | matrixUnitStart (core : Nat)
  /-- HART_MEMORY_ACCESS (R210): A host-core hart performs a load, store, AMO or store-conditional on coherent memory, which enters the package order, wakes watches and is dropped and logged when it targets the held-state table. -/
  | hartMemoryAccess (h : Nat) (acc : HartOp)
  /-- POWER_ON (R407): On 48 V or a whole-device reset, the ROM verifies and measures the firmware, which trains memory, configures the device and releases the host cores. -/
  | powerOn
  /-- CTX_CREATE (R30): The CREATE command moves a Free context to Created and resets its registers other than CTX_CTL. -/
  | ctxCreate
  /-- CTX_BIND (R31): The BIND command checks partition, ASID, pointers, pinning and the handler signature in order, then latches the registers, sets TVEC and moves Created to Bound. -/
  | ctxBind
  /-- CTX_ENABLE (R30): The ENABLE command moves a Bound context to Saved when it holds a saved image, and otherwise to Ready. -/
  | ctxEnable
  /-- CTX_PREEMPT (R34): The PREEMPT command starts pre-emption of a Running context; for a Ready or Saved context it changes nothing. -/
  | ctxPreempt
  /-- CTX_DISABLE (R30): The DISABLE command moves a Ready or Saved context to Bound, and the context keeps any saved image. -/
  | ctxDisable
  /-- CTX_UNBIND (R30): The UNBIND command moves a Bound context to Created and abandons any saved image. -/
  | ctxUnbind
  /-- CTX_DESTROY (R32): The DESTROY command halts threads, cancels channels, resets queues and moves the context to Draining. -/
  | ctxDestroy
  /-- PG_PIN (R262): The PIN page command moves a Mapped page to Pinned. -/
  | pgPin
  /-- PG_UNPIN (R262): The UNPIN page command moves a Pinned page to Mapped. -/
  | pgUnpin
  /-- PG_SHADOW (R262): The SHADOW page command gives a Mapped page a shadow frame and makes it Shadowed. -/
  | pgShadow
  /-- PG_UNSHADOW (R262): The UNSHADOW page command returns a Shadowed page to Mapped, reporting BUSY or discarding unpublished sectors. -/
  | pgUnshadow
  /-- PG_MIGRATE (R264): The MIGRATE page command makes the page Migrating, holds its writes and copies it to the new frame. -/
  | pgMigrate
  /-- PG_UNMAP (R262): The UNMAP page command makes a page Unmapped, clears its table entry and releases its line locks. -/
  | pgUnmap
  /-- PG_TAG (R262): The TAG page command sets or removes a page's handle tag. -/
  | pgTag
  /-- PG_UNPOISON (R262): The UNPOISON page command zeroes and unmarks a page's poisoned sectors. -/
  | pgUnpoison
  /-- PG_RESOLVE (R261): The RESOLVE page command ends a replayable fault, making the group replay its slot or raise PAGE_FATAL. -/
  | pgResolve
  /-- PG_FORCEUNMAP (R262): The FORCEUNMAP page command unmaps a page whatever its state, discarding any shadow. -/
  | pgForceunmap
  /-- PG_QUERY (R262): The QUERY page command returns a page's state, frame and handle. -/
  | pgQuery
  /-- BUCKET_TICK (R327): Every 64 ns the die and core buckets refill by their shortfalls, and the package bucket's remaining tokens are offered to ballast. -/
  | bucketTick
  /-- THERMAL_STEP_MOVE (R329): Every 100 µs the thermal step moves one place toward its target, changing the core refill cap. -/
  | thermalStepMove
  /-- SD0_LOSS (R419): A fault removes SD0 from service and takes the whole package out of service. -/
  | sd0Loss
  /-- SIDEBAND_SILENCE (R419): The sideband has been silent for 10 ms, so the 48 V stage asserts the module fault pin. -/
  | sidebandSilence
  /-- VERSION (R414): The VERSION mailbox command returns SVN, the ROM version and DEVID. -/
  | version
  /-- ATTEST (R415): The ATTEST mailbox command returns a signed report of the measurements for a nonce. -/
  | attest
  /-- EXTEND (R411): The EXTEND mailbox command extends measurement register M3 to M7 with 64 data bytes. -/
  | extend
  /-- SETPKEY (R412): The SETPKEY mailbox command installs the provider key once before the first BIND, and otherwise returns LOCKED. -/
  | setpkey
  /-- RASREAD (R417): The RASREAD mailbox command returns RAS log entries from an index, with the overflow count. -/
  | rasread
  /-- SENSORS (R418): The SENSORS mailbox command returns temperatures, input power, rail powers and stored charge. -/
  | sensors
  /-- RECOVER (R410): The RECOVER mailbox command enters the recovery loader. -/
  | recover
  /-- SETPART (R19): The SETPART mailbox command writes PARTCFG.PMODE, or returns BADARG or BUSY. -/
  | setpart
  /-- DEBUG_HALT (R390): The HALT debug command posts a stop- or trap-form halt request to the named threads. -/
  | debugHalt
  /-- DEBUG_RESUME (R390): The RESUME debug command makes the named Halted threads Ready, or is refused. -/
  | debugResume
  /-- DEBUG_STEP1 (R390): The STEP1 debug command lets one Halted thread run one slot and halt again. -/
  | debugStep1
  /-- DEBUG_STATUS (R392): The STATUS debug command returns the state code of each named thread. -/
  | debugStatus
  /-- DEBUG_EVENTS (R393): The EVENTS debug command returns and removes queued debug events with their counts. -/
  | debugEvents
  /-- POWER_LOSS (R410): The 48 V supply is lost, or removed by THERMTRIP, and the package stops, even during a flash write of recovery. -/
  | powerLoss
  deriving DecidableEq, Repr

end Sys2Proof
end

