-- ==== Sys2Proof/Machine/Shape.lean ====
section
/-!
DEFINITION. The rules of the core words that depend on the word alone: opcode, admission set, transfer and counting marks
(R76, R79, R89), the permitted field values of check 3 (R81) and the permitted operands of check 4 (R83, R84) of R92.
-/
namespace Sys2Proof

/-- A core word without its opcode, by format (R80, R174, R178). -/
inductive Body where
  | v3 (f : V3) | cvt (f : Cvt) | cbx (f : Cbx) | i24 (f : I24) | l32 (f : L32)
  | mem (f : Mem) | xf (f : Xf) | tl (f : Tl) | br (f : Br) | sy (f : Sy)
  deriving DecidableEq, Repr

/-- The opcode map of R89, from the instruction: its opcode and the fields of its word. -/
def Instr.core : Instr → Option (Nat × Body)
  | .iadd f => some (0x00, .v3 f)
  | .isub f => some (0x01, .v3 f)
  | .iaddc f => some (0x02, .v3 f)
  | .isubb f => some (0x03, .v3 f)
  | .ineg f => some (0x04, .v3 f)
  | .iabs f => some (0x05, .v3 f)
  | .imul f => some (0x06, .v3 f)
  | .imulh f => some (0x07, .v3 f)
  | .imad f => some (0x08, .v3 f)
  | .imadw f => some (0x09, .v3 f)
  | .idiv f => some (0x0A, .v3 f)
  | .irem f => some (0x0B, .v3 f)
  | .imin f => some (0x0C, .v3 f)
  | .imax f => some (0x0D, .v3 f)
  | .icmp f => some (0x0E, .v3 f)
  | .isel f => some (0x0F, .v3 f)
  | .andL f => some (0x10, .v3 f)
  | .orL f => some (0x11, .v3 f)
  | .xorL f => some (0x12, .v3 f)
  | .andn f => some (0x13, .v3 f)
  | .orn f => some (0x14, .v3 f)
  | .shl f => some (0x15, .v3 f)
  | .shr f => some (0x16, .v3 f)
  | .sar f => some (0x17, .v3 f)
  | .rotl f => some (0x18, .v3 f)
  | .funl f => some (0x19, .v3 f)
  | .bfx f => some (0x1A, .v3 f)
  | .bfi f => some (0x1B, .v3 f)
  | .popc f => some (0x1C, .v3 f)
  | .clz f => some (0x1D, .v3 f)
  | .ctz f => some (0x1E, .v3 f)
  | .brev f => some (0x1F, .v3 f)
  | .permb f => some (0x20, .v3 f)
  | .lea f => some (0x21, .v3 f)
  | .mov f => some (0x22, .v3 f)
  | .movi f => some (0x23, .l32 f)
  | .movh f => some (0x24, .l32 f)
  | .iaddi f => some (0x25, .i24 f)
  | .icmpi f => some (0x26, .i24 f)
  | .andi f => some (0x27, .i24 f)
  | .ori f => some (0x28, .i24 f)
  | .xori f => some (0x29, .i24 f)
  | .shli f => some (0x2A, .i24 f)
  | .shri f => some (0x2B, .i24 f)
  | .sari f => some (0x2C, .i24 f)
  | .fadd f => some (0x40, .v3 f)
  | .fsub f => some (0x41, .v3 f)
  | .fmul f => some (0x42, .v3 f)
  | .ffma f => some (0x43, .v3 f)
  | .fmin f => some (0x44, .v3 f)
  | .fmax f => some (0x45, .v3 f)
  | .fminm f => some (0x46, .v3 f)
  | .fmaxm f => some (0x47, .v3 f)
  | .fcmp f => some (0x48, .v3 f)
  | .fclass f => some (0x49, .v3 f)
  | .frnd f => some (0x4A, .v3 f)
  | .fscale f => some (0x4B, .v3 f)
  | .fexpx f => some (0x4C, .v3 f)
  | .fdiv f => some (0x4D, .v3 f)
  | .fsqrt f => some (0x4E, .v3 f)
  | .frcp f => some (0x4F, .v3 f)
  | .frsq f => some (0x50, .v3 f)
  | .fexp2 f => some (0x51, .v3 f)
  | .flog2 f => some (0x52, .v3 f)
  | .fsinp f => some (0x53, .v3 f)
  | .fcosp f => some (0x54, .v3 f)
  | .ftanh f => some (0x55, .v3 f)
  | .fdot2 f => some (0x56, .v3 f)
  | .cvt f => some (0x57, .cvt f)
  | .cvtp f => some (0x58, .cvt f)
  | .cvtq f => some (0x59, .cvt f)
  | .cbx f => some (0x5A, .cbx f)
  | .shfl f => some (0x80, .v3 f)
  | .qswap f => some (0x81, .v3 f)
  | .qbc f => some (0x82, .v3 f)
  | .vote f => some (0x83, .v3 f)
  | .matchV f => some (0x84, .v3 f)
  | .xred f => some (0x85, .v3 f)
  | .xscan f => some (0x86, .v3 f)
  | .lmask f => some (0x87, .v3 f)
  | .ld f => some (0x90, .mem f)
  | .st f => some (0x91, .mem f)
  | .atom f => some (0x92, .mem f)
  | .ared f => some (0x93, .mem f)
  | .fld f => some (0x94, .mem f)
  | .fst f => some (0x95, .mem f)
  | .fatom f => some (0x96, .mem f)
  | .mcst f => some (0x97, .mem f)
  | .tld f => some (0x98, .mem f)
  | .tst f => some (0x99, .mem f)
  | .pref f => some (0x9A, .mem f)
  | .cctl f => some (0x9B, .mem f)
  | .fence f => some (0x9C, .mem f)
  | .recW f => some (0x9D, .mem f)
  | .binit f => some (0xB0, .xf f)
  | .barv f => some (0xB1, .xf f)
  | .barx f => some (0xB2, .xf f)
  | .bdrop f => some (0xB3, .xf f)
  | .bwait f => some (0xB4, .xf f)
  | .btest f => some (0xB5, .xf f)
  | .bxc f => some (0xB6, .xf f)
  | .bxs f => some (0xB7, .xf f)
  | .tmpl f => some (0xB8, .xf f)
  | .pub f => some (0xB9, .xf f)
  | .bxcan f => some (0xBA, .xf f)
  | .mma f => some (0xC0, .tl f)
  | .jset f => some (0xC1, .tl f)
  | .jclr f => some (0xC2, .tl f)
  | .cbld f => some (0xC3, .tl f)
  | .nop f => some (0xD0, .sy f)
  | .bra f => some (0xD1, .br f)
  | .brx f => some (0xD2, .v3 f)
  | .call f => some (0xD3, .br f)
  | .ret f => some (0xD4, .v3 f)
  | .exit f => some (0xD5, .sy f)
  | .yield f => some (0xD6, .sy f)
  | .sleep f => some (0xD7, .i24 f)
  | .trap f => some (0xD8, .sy f)
  | .bkpt f => some (0xD9, .sy f)
  | .step f => some (0xDA, .sy f)
  | .tracew f => some (0xDB, .v3 f)
  | .s2v f => some (0xE0, .sy f)
  | .v2s f => some (0xE1, .sy f)
  | .rft f => some (0xE2, .sy f)
  | .kswap f => some (0xE3, .v3 f)
  | .tsr f => some (0xE4, .sy f)
  | .tsw f => some (0xE5, .sy f)
  | .haltg f => some (0xE6, .sy f)
  | .tlbi f => some (0xE7, .v3 f)
  | .tokq f => some (0xE8, .sy f)
  | .intent f => some (0xE9, .v3 f)
  | .ballast f => some (0xEA, .v3 f)
  | _ => none

/-- The opcode map of R89 for format V3. -/
def ofV3 (f : V3) : Nat → Option Instr
  | 0x00 => some (.iadd f)
  | 0x01 => some (.isub f)
  | 0x02 => some (.iaddc f)
  | 0x03 => some (.isubb f)
  | 0x04 => some (.ineg f)
  | 0x05 => some (.iabs f)
  | 0x06 => some (.imul f)
  | 0x07 => some (.imulh f)
  | 0x08 => some (.imad f)
  | 0x09 => some (.imadw f)
  | 0x0A => some (.idiv f)
  | 0x0B => some (.irem f)
  | 0x0C => some (.imin f)
  | 0x0D => some (.imax f)
  | 0x0E => some (.icmp f)
  | 0x0F => some (.isel f)
  | 0x10 => some (.andL f)
  | 0x11 => some (.orL f)
  | 0x12 => some (.xorL f)
  | 0x13 => some (.andn f)
  | 0x14 => some (.orn f)
  | 0x15 => some (.shl f)
  | 0x16 => some (.shr f)
  | 0x17 => some (.sar f)
  | 0x18 => some (.rotl f)
  | 0x19 => some (.funl f)
  | 0x1A => some (.bfx f)
  | 0x1B => some (.bfi f)
  | 0x1C => some (.popc f)
  | 0x1D => some (.clz f)
  | 0x1E => some (.ctz f)
  | 0x1F => some (.brev f)
  | 0x20 => some (.permb f)
  | 0x21 => some (.lea f)
  | 0x22 => some (.mov f)
  | 0x40 => some (.fadd f)
  | 0x41 => some (.fsub f)
  | 0x42 => some (.fmul f)
  | 0x43 => some (.ffma f)
  | 0x44 => some (.fmin f)
  | 0x45 => some (.fmax f)
  | 0x46 => some (.fminm f)
  | 0x47 => some (.fmaxm f)
  | 0x48 => some (.fcmp f)
  | 0x49 => some (.fclass f)
  | 0x4A => some (.frnd f)
  | 0x4B => some (.fscale f)
  | 0x4C => some (.fexpx f)
  | 0x4D => some (.fdiv f)
  | 0x4E => some (.fsqrt f)
  | 0x4F => some (.frcp f)
  | 0x50 => some (.frsq f)
  | 0x51 => some (.fexp2 f)
  | 0x52 => some (.flog2 f)
  | 0x53 => some (.fsinp f)
  | 0x54 => some (.fcosp f)
  | 0x55 => some (.ftanh f)
  | 0x56 => some (.fdot2 f)
  | 0x80 => some (.shfl f)
  | 0x81 => some (.qswap f)
  | 0x82 => some (.qbc f)
  | 0x83 => some (.vote f)
  | 0x84 => some (.matchV f)
  | 0x85 => some (.xred f)
  | 0x86 => some (.xscan f)
  | 0x87 => some (.lmask f)
  | 0xD2 => some (.brx f)
  | 0xD4 => some (.ret f)
  | 0xDB => some (.tracew f)
  | 0xE3 => some (.kswap f)
  | 0xE7 => some (.tlbi f)
  | 0xE9 => some (.intent f)
  | 0xEA => some (.ballast f)
  | _ => none

/-- The opcode map of R89 for the other formats. -/
def ofBody (op : Nat) : Body → Option Instr
  | .v3 f => ofV3 f op
  | .cvt f => match op with
    | 0x57 => some (.cvt f)
    | 0x58 => some (.cvtp f)
    | 0x59 => some (.cvtq f)
    | _ => none
  | .cbx f => match op with
    | 0x5A => some (.cbx f)
    | _ => none
  | .i24 f => match op with
    | 0x25 => some (.iaddi f)
    | 0x26 => some (.icmpi f)
    | 0x27 => some (.andi f)
    | 0x28 => some (.ori f)
    | 0x29 => some (.xori f)
    | 0x2A => some (.shli f)
    | 0x2B => some (.shri f)
    | 0x2C => some (.sari f)
    | 0xD7 => some (.sleep f)
    | _ => none
  | .l32 f => match op with
    | 0x23 => some (.movi f)
    | 0x24 => some (.movh f)
    | _ => none
  | .mem f => match op with
    | 0x90 => some (.ld f)
    | 0x91 => some (.st f)
    | 0x92 => some (.atom f)
    | 0x93 => some (.ared f)
    | 0x94 => some (.fld f)
    | 0x95 => some (.fst f)
    | 0x96 => some (.fatom f)
    | 0x97 => some (.mcst f)
    | 0x98 => some (.tld f)
    | 0x99 => some (.tst f)
    | 0x9A => some (.pref f)
    | 0x9B => some (.cctl f)
    | 0x9C => some (.fence f)
    | 0x9D => some (.recW f)
    | _ => none
  | .xf f => match op with
    | 0xB0 => some (.binit f)
    | 0xB1 => some (.barv f)
    | 0xB2 => some (.barx f)
    | 0xB3 => some (.bdrop f)
    | 0xB4 => some (.bwait f)
    | 0xB5 => some (.btest f)
    | 0xB6 => some (.bxc f)
    | 0xB7 => some (.bxs f)
    | 0xB8 => some (.tmpl f)
    | 0xB9 => some (.pub f)
    | 0xBA => some (.bxcan f)
    | _ => none
  | .tl f => match op with
    | 0xC0 => some (.mma f)
    | 0xC1 => some (.jset f)
    | 0xC2 => some (.jclr f)
    | 0xC3 => some (.cbld f)
    | _ => none
  | .br f => match op with
    | 0xD1 => some (.bra f)
    | 0xD3 => some (.call f)
    | _ => none
  | .sy f => match op with
    | 0xD0 => some (.nop f)
    | 0xD5 => some (.exit f)
    | 0xD6 => some (.yield f)
    | 0xD8 => some (.trap f)
    | 0xD9 => some (.bkpt f)
    | 0xDA => some (.step f)
    | 0xE0 => some (.s2v f)
    | 0xE1 => some (.v2s f)
    | 0xE2 => some (.rft f)
    | 0xE4 => some (.tsr f)
    | 0xE5 => some (.tsw f)
    | 0xE6 => some (.haltg f)
    | 0xE8 => some (.tokq f)
    | _ => none

/-- The formats of R80. -/
inductive Fmt where
  | v3 | cvt | cbx | i24 | l32 | mem | xf | tl | br | sy
  deriving DecidableEq, Repr

/-- The format of an opcode; none for the unassigned opcodes of R90. -/
def opFmt (op : Nat) : Option Fmt :=
  if op ≤ 0x22 then some .v3 else if op ≤ 0x24 then some .l32 else if op ≤ 0x2C then some .i24
  else if op < 0x40 then none
  else if op ≤ 0x56 then some .v3 else if op ≤ 0x59 then some .cvt else if op = 0x5A then some .cbx
  else if op < 0x80 then none else if op ≤ 0x87 then some .v3
  else if op < 0x90 then none else if op ≤ 0x9D then some .mem
  else if op < 0xB0 then none else if op ≤ 0xBA then some .xf
  else if op < 0xC0 then none else if op ≤ 0xC3 then some .tl
  else if op < 0xD0 then none
  else if op = 0xD1 ∨ op = 0xD3 then some .br
  else if op = 0xD2 ∨ op = 0xD4 ∨ op = 0xDB then some .v3
  else if op = 0xD7 then some .i24
  else if op ≤ 0xDA then some .sy
  else if op < 0xE0 then none
  else if op = 0xE3 ∨ op = 0xE7 ∨ op = 0xE9 ∨ op = 0xEA then some .v3
  else if op ≤ 0xE8 then some .sy
  else none

/-- The admission sets of R76. -/
inductive ASet where
  | base | mem | tile | xfer | sys
  deriving DecidableEq, Repr

/-- The admission set of an opcode (R89). -/
def opSet (op : Nat) : ASet :=
  if 0x90 ≤ op ∧ op ≤ 0x9D then .mem
  else if 0xB0 ≤ op ∧ op ≤ 0xBA then .xfer
  else if 0xC0 ≤ op ∧ op ≤ 0xC3 then .tile
  else if (0xE1 ≤ op ∧ op ≤ 0xE7) ∨ op = 0xE9 then .sys
  else .base

/-- Class `cls` admits the set (R76). -/
def ASet.admitted (cls : Nat) : ASet → Bool
  | .base => cls ≤ 4
  | .mem => cls == 1
  | .tile => cls == 2
  | .xfer => cls == 3
  | .sys => cls == 4

/-- The control-transfer opcodes: BRA, BRX, CALL, RET, EXIT, RFT (R77). -/
def opTransfer (op : Nat) : Bool := (0xD1 ≤ op && op ≤ 0xD5) || op == 0xE2

/-- The opcodes that make a clause gang-scoped (R105). -/
def opGangScoped (op : Nat) : Bool := (0x80 ≤ op && op ≤ 0x87) || (0xC0 ≤ op && op ≤ 0xC3)

/-- The opcodes of memory slots, which samplers count (R402): LD to CCTL. -/
def opSampled (op : Nat) : Bool := 0x90 ≤ op && op ≤ 0x9B

/-- The opcodes that count a completion flag (R89). -/
def opCounts (op : Nat) : Bool :=
  op == 0x90 || op == 0x92 || (0x94 ≤ op && op ≤ 0x98) || op == 0x9B || op == 0xC0

/-! ### Types -/

/-- Types held in a pair of registers (R84, R125). -/
def Ty.wide : Ty → Bool
  | .s64 | .z64 | .f64 => true
  | _ => false

/-- The codes of R82. -/
def Ty.code : Ty → Nat
  | .s32 => 0 | .z32 => 1 | .s64 => 2 | .z64 => 3 | .f32 => 4 | .f64 => 5 | .f16 => 6 | .bf16 => 7
  | .h2 => 8 | .b2 => 9 | .e4m3 => 10 | .e5m2 => 11 | .s8 => 12 | .z8 => 13 | .s16 => 14 | .z16 => 15

/-- The type of a 4-bit code (R82). -/
def Ty.ofCode : Nat → Ty
  | 0 => .s32 | 1 => .z32 | 2 => .s64 | 3 => .z64 | 4 => .f32 | 5 => .f64 | 6 => .f16 | 7 => .bf16
  | 8 => .h2 | 9 => .b2 | 10 => .e4m3 | 11 => .e5m2 | 12 => .s8 | 13 => .z8 | 14 => .s16 | _ => .z16

/-- Signed types. -/
def Ty.signed : Ty → Bool
  | .s8 | .s16 | .s32 | .s64 => true
  | _ => false

/-- Floating-point types, the packed ones included. -/
def Ty.floating : Ty → Bool
  | .f32 | .f64 | .f16 | .bf16 | .h2 | .b2 | .e4m3 | .e5m2 => true
  | _ => false

/-- Integer types (R124). -/
def Ty.integer (t : Ty) : Bool := !t.floating

/-- Packed types (R125). -/
def Ty.packed : Ty → Bool
  | .h2 | .b2 => true
  | _ => false

/-- The width in bits of a value of the type (R119, R124). -/
def Ty.bits : Ty → Nat
  | .s64 | .z64 | .f64 => 64
  | .f16 | .bf16 | .s16 | .z16 => 16
  | .e4m3 | .e5m2 | .s8 | .z8 => 8
  | _ => 32

/-! ### How an operand field is used -/

/-- The use of an operand field by a word. -/
inductive Use where
  /-- Not used: 0 (R81). -/
  | unused
  /-- One register read. -/
  | src1
  /-- One register written. -/
  | dst1
  /-- `len` registers from one whose number is a multiple of `align`, or `vz` or `vo` where permitted. -/
  | span (len align : Nat) (vz vo : Bool)
  /-- A trap register only (R202). -/
  | kOnly
  deriving DecidableEq, Repr

/-- Check 4 of R92 for one operand, in a thread with `regs` registers (R83, R84). -/
def Use.permits (regs : Nat) : Use → Opnd → Bool
  | .unused, _ => true
  | .src1, .reg n => n.val < regs
  | .src1, .rsvd _ => false
  | .src1, _ => true
  | .dst1, .reg n => n.val < regs
  | .dst1, .vz => true
  | .dst1, .kreg _ => true
  | .dst1, _ => false
  | .span len align _ _, .reg n => n.val % align == 0 && n.val + len ≤ regs
  | .span _ _ vz _, .vz => vz
  | .span _ _ _ vo, .vo => vo
  | .span .., _ => false
  | .kOnly, .kreg _ => true
  | .kOnly, _ => false

/-- What an operand of formats V3 and I24 holds, before the type is known. -/
inductive Arg where
  /-- Not used. -/
  | no
  /-- A value of the type's width. -/
  | ty
  /-- One register whatever the type. -/
  | r32
  /-- A pair whatever the type. -/
  | r64
  /-- Two registers that a conversion writes (R177). -/
  | two
  /-- Four registers (R177, R178). -/
  | four
  /-- A trap register. -/
  | kr
  deriving DecidableEq, Repr

/-- The use of an operand, given the type and whether it is the destination. -/
def Arg.use (t : Ty) (dst : Bool) : Arg → Use
  | .no => .unused
  | .ty => if t.wide then .span 2 2 true (!dst) else if dst then .dst1 else .src1
  | .r32 => if dst then .dst1 else .src1
  | .r64 => .span 2 2 true (!dst)
  | .two => .span 2 2 true false
  | .four => .span 4 4 true false
  | .kr => .kOnly

/-- A hold may copy this operand or result: one 32-bit register (R86). -/
def Arg.holdable (t : Ty) : Arg → Bool
  | .ty => !t.wide
  | .r32 => true
  | _ => false

/-- The form of a V3 word: types, MOD values, operands, and whether the hold fields are available. -/
structure Sh3 where
  tys : List Ty
  mods : List Nat
  d : Arg
  a : Arg
  b : Arg
  c : Arg
  hold : Bool := true
  deriving DecidableEq, Repr

/-- R137. -/
def intTys : List Ty := [.s32, .z32, .s64, .z64]
/-- The bitwise types (R148). -/
def zTys : List Ty := [.z32, .z64]
/-- The signed types of R141. -/
def sTys : List Ty := [.s32, .s64]
/-- R158. -/
def fpTys : List Ty := [.f32, .f64, .f16, .bf16, .h2, .b2]
/-- R171. -/
def trTys : List Ty := [.f32, .f16, .bf16, .h2, .b2]
/-- The rounding modes without `SAT` (R126). -/
def rms : List Nat := [0, 1, 2, 3, 4]
/-- The rounding modes with either `SAT` (R126). -/
def rmsSat : List Nat := [0, 1, 2, 3, 4, 8, 9, 10, 11, 12]

/-- The types of a reduction by its operation, MOD bits 2:0 (R185). -/
def redTys : Nat → List Ty
  | 0 | 1 | 2 => intTys ++ [.f32, .f64]
  | 3 | 4 | 5 => zTys
  | _ => []

/-- The forms of the V3 opcodes, given MOD (R141 to R156, R162 to R173, R181 to R187, R190, R196, R202, R206, R343, R344). -/
def v3Shape (mod : Nat) : Nat → Option Sh3
  | 0x00 | 0x01 => some { tys := intTys, mods := [0, 1], d := .ty, a := .ty, b := .ty, c := .no }
  | 0x02 | 0x03 => some { tys := [.z32], mods := [0], d := .r64, a := .r32, b := .r32, c := .r32 }
  | 0x04 | 0x05 => some { tys := sTys, mods := [0, 1], d := .ty, a := .ty, b := .no, c := .no }
  | 0x06 | 0x07 | 0x0A | 0x0B | 0x0C | 0x0D =>
    some { tys := intTys, mods := [0], d := .ty, a := .ty, b := .ty, c := .no }
  | 0x08 => some { tys := intTys, mods := [0], d := .ty, a := .ty, b := .ty, c := .ty }
  | 0x09 => some { tys := [.s32, .z32], mods := [0], d := .r64, a := .r32, b := .r32, c := .r64 }
  | 0x0E => some { tys := intTys, mods := [0, 1, 2, 3, 4, 5], d := .r32, a := .ty, b := .ty, c := .no }
  | 0x0F => some { tys := zTys, mods := [0], d := .ty, a := .ty, b := .ty, c := .r32 }
  | 0x10 | 0x11 | 0x12 | 0x13 | 0x14 => some { tys := zTys, mods := [0], d := .ty, a := .ty, b := .ty, c := .no }
  | 0x15 | 0x16 | 0x18 => some { tys := zTys, mods := [0], d := .ty, a := .ty, b := .r32, c := .no }
  | 0x17 => some { tys := sTys, mods := [0], d := .ty, a := .ty, b := .r32, c := .no }
  | 0x19 | 0x20 => some { tys := [.z32], mods := [0], d := .r32, a := .r32, b := .r32, c := .r32 }
  | 0x1A => some { tys := intTys, mods := [0], d := .ty, a := .ty, b := .r32, c := .no }
  | 0x1B => some { tys := zTys, mods := [0], d := .ty, a := .ty, b := .ty, c := .r32 }
  | 0x1C | 0x1D | 0x1E => some { tys := zTys, mods := [0], d := .r32, a := .ty, b := .no, c := .no }
  | 0x1F | 0x22 => some { tys := zTys, mods := [0], d := .ty, a := .ty, b := .no, c := .no }
  | 0x21 => some { tys := [.s32, .z32, .s64], mods := [0, 1, 2, 3, 4, 5, 6, 7], d := .r64, a := .r64, b := .ty, c := .no }
  | 0x40 | 0x41 | 0x42 | 0x4D => some { tys := fpTys, mods := rms, d := .ty, a := .ty, b := .ty, c := .no }
  | 0x43 => some { tys := fpTys, mods := rms, d := .ty, a := .ty, b := .ty, c := .ty }
  | 0x44 | 0x45 | 0x46 | 0x47 => some { tys := fpTys, mods := [0], d := .ty, a := .ty, b := .ty, c := .no }
  | 0x48 => some { tys := fpTys, mods := [0, 1, 2, 3, 4, 5, 6, 7, 8, 9, 10, 11, 12, 13], d := .r32, a := .ty, b := .ty,
                   c := .no }
  | 0x49 => some { tys := [.f32, .f64, .f16, .bf16, .e4m3, .e5m2], mods := [0], d := .r32, a := .ty, b := .no, c := .no }
  | 0x4A | 0x4E | 0x4F | 0x50 => some { tys := fpTys, mods := rms, d := .ty, a := .ty, b := .no, c := .no }
  | 0x4B => some { tys := fpTys, mods := rms, d := .ty, a := .ty, b := .r32, c := .no }
  | 0x4C => some { tys := [.f32, .f64, .f16, .bf16], mods := [0], d := .r32, a := .ty, b := .no, c := .no }
  | 0x51 | 0x52 | 0x53 | 0x54 | 0x55 => some { tys := trTys, mods := [0], d := .ty, a := .ty, b := .no, c := .no }
  | 0x56 => some { tys := [.h2, .b2], mods := rms, d := .r32, a := .r32, b := .r32, c := .r32 }
  | 0x80 => some { tys := zTys, mods := [0, 1], d := .ty, a := .ty, b := .r32, c := .ty }
  | 0x81 => some { tys := zTys, mods := [0, 1, 2], d := .ty, a := .ty, b := .no, c := .ty }
  | 0x82 => some { tys := zTys, mods := [0, 1, 2, 3], d := .ty, a := .ty, b := .no, c := .ty }
  | 0x83 => some { tys := [.z32], mods := [0, 1], d := .r32, a := .r32, b := .no, c := .no }
  | 0x84 => some { tys := zTys, mods := [0, 1, 2, 3], d := .r32, a := .ty, b := .no, c := .no }
  | 0x85 => some { tys := redTys mod, mods := [0, 1, 2, 3, 4, 5], d := .ty, a := .ty, b := .no, c := .no }
  | 0x86 => some { tys := redTys (mod % 8), mods := [0, 1, 2, 3, 4, 5, 8, 9, 10, 11, 12, 13], d := .ty, a := .ty, b := .no,
                   c := .no }
  | 0x87 => some { tys := [.z32], mods := [0, 1, 2, 3, 4, 5, 6, 7], d := .r32, a := .no, b := .no, c := .no }
  | 0xD2 | 0xD4 => some { tys := [.z64], mods := [0], d := .no, a := .r64, b := .no, c := .no, hold := false }
  | 0xDB => some { tys := zTys, mods := [0], d := .no, a := .r32, b := .ty, c := .no, hold := false }
  | 0xE3 => some { tys := [.z32], mods := [0], d := .r32, a := .kr, b := .no, c := .no, hold := false }
  | 0xE7 => some { tys := [.s32], mods := [0, 1, 2], d := .no, a := if mod = 0 then .r64 else .no, b := .no, c := .no,
                   hold := false }
  | 0xE9 => some { tys := [.z32], mods := [0], d := .r32, a := .r32, b := .r32, c := .no, hold := false }
  | 0xEA => some { tys := [.s32], mods := [0, 1, 2], d := .r32, a := if mod = 1 then .no else .r64,
                   b := if mod = 1 then .no else .r32, c := .no, hold := false }
  | _ => none

/-- An unused operand field is 0, the encoding of v0 (R81). -/
def Arg.zeroOk (o : Opnd) : Arg → Bool
  | .no => o == .reg 0
  | _ => true

/-- The hold fields agree with the operands (R86): no hold, or a 32-bit operand or result that the word has. -/
def holdOk (allowed : Bool) (t : Ty) (d a b c : Arg) : Hold → Bool
  | .none => true
  | .keep _ s => allowed && (match s with | .a => a.holdable t | .b => b.holdable t | .c => c.holdable t | .r => d.holdable t)

/-- Check 3 of R92 for a V3 word, with the rule of `KEEP` (R181). -/
def V3.encOk (op : Nat) (f : V3) : Bool :=
  match v3Shape f.mod.toNat op with
  | some s => s.tys.contains f.t && s.mods.contains f.mod.toNat && s.d.zeroOk f.d && s.a.zeroOk f.a && s.b.zeroOk f.b &&
      s.c.zeroOk f.c && holdOk s.hold f.t s.d s.a s.b s.c f.h && (op != 0x80 || f.mod != 1 || f.c == .vz)
  | none => false

/-- The destination of a conversion (R175 to R177). -/
def Cvt.dArg (op : Nat) (f : Cvt) : Arg :=
  if op = 0x59 then (if f.t = .f32 ∧ (f.ts = .e4m3 ∨ f.ts = .e5m2) then .four else .two)
  else if f.t.wide then .r64 else .r32

/-- The sources of a conversion. -/
def Cvt.aArg (f : Cvt) : Arg := if f.ts.wide then .r64 else .r32

/-- The second source, which only `CVTP` has. -/
def Cvt.bArg (op : Nat) (f : Cvt) : Arg := if op = 0x58 then f.aArg else .no

/-- The permitted (T, TS) pairs (R175, R176, R177). -/
def Cvt.tysOk (op : Nat) (t ts : Ty) : Bool :=
  match op with
  | 0x57 => !t.packed && !ts.packed
  | 0x58 => (t.packed && (ts == .f32 || ts == .f64)) || ((t == .e4m3 || t == .e5m2) && (ts == .f32 || ts.packed))
  | 0x59 => ((t == .f32 || t.packed) && (ts == .e4m3 || ts == .e5m2)) || (t == .f32 && ts.packed)
  | _ => false

/-- Check 3 for a conversion (R174): MOD holds RM and `SAT`, 0 for `CVTQ`. -/
def Cvt.encOk (op : Nat) (f : Cvt) : Bool :=
  Cvt.tysOk op f.t f.ts && (if op = 0x59 then f.mod == 0 else rmsSat.contains f.mod.toNat) && (f.bArg op).zeroOk f.b &&
    holdOk true f.t (f.dArg op) f.aArg (f.bArg op) .no f.h

/-- Check 3 for `CBX` (R178). -/
def Cbx.encOk (f : Cbx) : Bool :=
  f.t == .b2 && f.mod == 0 && f.b == .reg 0 && holdOk true f.t .four .r32 .no .no f.h

/-- Check 3 for an I24 word (R146, R157, R193). -/
def I24.encOk (op : Nat) (f : I24) : Bool :=
  let w := if f.t.wide then 64 else 32
  match op with
  | 0x25 => intTys.contains f.t && f.mod.toNat ≤ 1
  | 0x26 => intTys.contains f.t
  | 0x27 | 0x28 | 0x29 => zTys.contains f.t && f.mod == 0
  | 0x2A | 0x2B => zTys.contains f.t && f.mod == 0 && f.imm.toNat < w
  | 0x2C => sTys.contains f.t && f.mod == 0 && f.imm.toNat < w
  | 0xD7 => f.t == .z32 && f.mod == 0 && f.d == .reg 0
  | _ => false

/-- Check 3 for an L32 word (R155). -/
def L32.encOk (op : Nat) (f : L32) : Bool :=
  f.mod == 0 && (op == 0x23 || (op == 0x24 && f.t2 == 0))

/-- The types of an atomic operation (R233); `cas` is `AOP` 7. -/
def aopTys : Nat → List Ty
  | 0 => intTys ++ [.f32, .f64, .f16, .bf16, .h2, .b2]
  | 1 | 2 => intTys ++ [.f32, .f64, .h2, .b2]
  | 3 | 4 | 5 | 6 | 7 => zTys
  | _ => []

/-- `AOP` of an atomic word. -/
def Mem.aop (f : Mem) : Nat := f.off.toNat / 256
/-- The type of an atomic word. -/
def Mem.aty (f : Mem) : Ty := Ty.ofCode (f.off.toNat / 16 % 16)

/-- The atomic fields of OFF12 and W agree (R233). -/
def Mem.atomOk (cas : Bool) (f : Mem) : Bool :=
  (aopTys f.aop).contains f.aty && f.off.toNat % 16 == 0 && 8 * 2 ^ f.w.toNat == f.aty.bits && (cas || f.aop != 7)

/-- Check 3 for a memory word (R226, R233, R240 to R243, R247). -/
def Mem.encOk (op : Nat) (f : Mem) : Bool :=
  let z := Opnd.reg 0
  let w := f.w.toNat
  let sp := f.sp.toNat
  let cp := f.cp.toNat
  match op with
  | 0x90 => f.x == z && w ≤ 4 && sp ≤ 2 && (sp == 0 || cp == 0) && (!f.sx || w ≤ 1)
  | 0x91 => f.d == z && !f.fs && w ≤ 4 && sp ≤ 2 && (sp == 0 || cp == 0) && !f.sx
  | 0x92 => sp ≤ 2 && cp ≤ 1 && !f.sx && f.atomOk true
  | 0x93 => f.d == z && !f.fs && sp ≤ 2 && cp ≤ 1 && !f.sx && f.atomOk false
  | 0x94 => f.x == z && w ≤ 4 && sp == 3 && cp ≤ 1 && (!f.sx || w ≤ 1)
  | 0x95 => w ≤ 4 && sp == 3 && cp ≤ 1 && !f.sx
  | 0x96 => sp == 3 && cp ≤ 1 && !f.sx && f.atomOk true
  | 0x97 => w ≤ 4 && sp == 3 && cp == 0 && !f.sx
  | 0x98 => f.x == z && w == 0 && sp == 0 && !f.sx && f.off.toNat % 4 == 0
  | 0x99 => f.d == z && !f.fs && w == 0 && sp == 0 && !f.sx && f.off.toNat % 4 == 0
  | 0x9A => f.d == z && f.x == z && !f.fs && w == 0 && sp == 0 && !f.sx
  | 0x9B => f.x == z && w == 0 && sp == 0 && cp == 0 && !f.sx && f.off.toNat ≤ 3
  | 0x9C => f.d == z && f.a == z && f.x == z && !f.fs && w == 0 && sp == 0 && cp == 0 && !f.sx && f.off != 0 &&
      f.off.toNat ≤ 15
  | 0x9D => f.d == z && f.a == z && !f.fs && w == 3 && sp == 0 && cp == 0 && !f.sx && f.off.toNat < 256
  | _ => false

/-- `BSP`, the space of a barrier object (R270). -/
def Xf.bsp (f : Xf) : Nat := f.mod.toNat % 4

/-- Check 3 for a transfer word (R270). -/
def Xf.encOk (op : Nat) (f : Xf) : Bool :=
  let z := Opnd.reg 0
  let m := f.mod.toNat
  let obj := m ≤ 2 && f.c == z && f.tmpl == 0 && f.ch == 0
  match op with
  | 0xB0 => obj && f.d == z
  | 0xB1 => obj && f.b == z
  | 0xB2 => obj
  | 0xB3 => obj && f.d == z && f.b == z
  | 0xB4 => obj && f.d == z
  | 0xB5 => obj
  | 0xB6 => f.d == z && m < 16 && m % 4 ≤ 2
  | 0xB7 => f.d == z && m < 8 && m % 4 ≤ 2
  | 0xB8 => f.d == z && f.a == z && f.c == z && f.ch == 0 && m < 8
  | 0xB9 => f.d == z && f.b == z && f.c == z && f.tmpl == 0 && f.ch == 0 && m == 0
  | 0xBA => f.a == z && f.b == z && f.c == z && f.tmpl == 0 && m == 0
  | _ => false

/-- The registers of an accumulator, A and B fragment (R289). -/
def fragRegs (shape : Nat) : Nat × Nat × Nat :=
  match shape with
  | 0 => (8, 8, 4)
  | 1 => (4, 8, 4)
  | _ => (8, 8, 8)

/-- The C operand of an `MMA` is read (R292). -/
def Tl.usesC (f : Tl) : Bool :=
  ((f.shape == 4 || f.shape == 5) && f.bs != 4) || f.shape == 7

/-- Check 3 for a tile word (R287, R291, R292). -/
def Tl.encOk (op : Nat) (f : Tl) : Bool :=
  let z := Opnd.reg 0
  match op with
  | 0xC0 => f.shape.toNat ≤ 7 && (f.usesC || f.c == z) &&
      (match f.shape.toNat with
       | 4 | 5 => f.bs == 0 || f.bs == 2 || f.bs == 4
       | 7 => f.bs == 0 || f.bs == 4
       | _ => f.bs == 0)
  | 0xC1 => f.d == z && f.b == z && f.c == z && f.shape == 0 && f.bs == 0 && !f.fs
  | 0xC2 => f.d == z && f.a == z && f.b == z && f.c == z && f.shape == 0 && f.bs == 0 && !f.fs
  | 0xC3 => f.d == z && f.b == z && f.c == z && f.j == 0 && f.shape.toNat < 16 && f.bs == 0 && !f.fs
  | _ => false

/-- Check 3 for a branch word (R189). -/
def Br.encOk (op : Nat) (f : Br) : Bool :=
  f.imm == 0 && (op == 0xD3 || (op == 0xD1 && f.a == .reg 0))

/-- The width in bits of a special value (R198); none for a selector outside the table. -/
def s2vWidth (sel : Nat) : Option Nat :=
  if sel ≤ 4 ∨ (8 ≤ sel ∧ sel ≤ 10) ∨ (0x10 ≤ sel ∧ sel ≤ 0x12) ∨ (0x14 ≤ sel ∧ sel ≤ 0x16) ∨
      (0x18 ≤ sel ∧ sel ≤ 0x1A) ∨ sel = 0x1C ∨ sel = 0x1D ∨ (0x20 ≤ sel ∧ sel ≤ 0x24) then some 32
  else if sel = 0x28 ∨ (0x30 ≤ sel ∧ sel ≤ 0x32) then some 64
  else if 0x40 ≤ sel ∧ sel ≤ 0x42 then some 32
  else if sel = 0x43 then some 64
  else if sel = 0x48 then some 32
  else if 0x80 ≤ sel ∧ sel ≤ 0x85 then some 64
  else none

/-- The width of a trap register that `V2S` writes (R199). -/
def v2sWidth (sel : Nat) : Option Nat :=
  if sel = 0x80 ∨ sel = 0x82 then some 64 else if sel = 0x81 ∨ sel = 0x83 then some 32 else none

/-- The width of a thread-state word (R203). -/
def tsrWidth (sel : Nat) : Option Nat :=
  if sel = 0 then some 64 else if 1 ≤ sel ∧ sel ≤ 3 then some 32 else if 0x10 ≤ sel ∧ sel ≤ 0x17 then some 64
  else if 0x100 ≤ sel ∧ sel ≤ 0x17F then some 32 else none

/-- The width of a token value (R342). -/
def tokqWidth (sel : Nat) : Option Nat :=
  if sel ≤ 0xA then some 32 else if sel = 0x10 ∨ sel = 0x11 then some 64 else none

/-- Check 3 for a word of format S (R91, R191 to R205, R342). -/
def Sy.encOk (op : Nat) (f : Sy) : Bool :=
  let z := Opnd.reg 0
  let s := f.sel.toNat
  match op with
  | 0xD0 | 0xD5 | 0xD6 | 0xE2 => f.d == z && f.a == z && s == 0
  | 0xD8 | 0xD9 => f.d == z && f.a == z
  | 0xDA => f.d == z && s == 0
  | 0xE0 => f.a == z && (s2vWidth s).isSome
  | 0xE1 => f.d == z && (v2sWidth s).isSome
  | 0xE4 => f.a == z && (tsrWidth s).isSome
  | 0xE5 => f.d == z && (tsrWidth s).isSome
  | 0xE6 => f.d == z && s < 8 && (s / 2 == 0 || f.a == .vz)
  | 0xE8 => (tokqWidth s).isSome && (s == 3 || f.a == z)
  | _ => false

/-- Check 3 of R92 on the fields of a word. -/
def Body.encOk (op : Nat) : Body → Bool
  | .v3 f => f.encOk op
  | .cvt f => f.encOk op
  | .cbx f => f.encOk
  | .i24 f => f.encOk op
  | .l32 f => f.encOk op
  | .mem f => f.encOk op
  | .xf f => f.encOk op
  | .tl f => f.encOk op
  | .br f => f.encOk op
  | .sy f => f.encOk op

/-! ### Operands (check 4) -/

/-- The guard operand. -/
def Guard.uses : Guard → List (Nat × Use × Opnd)
  | .always => []
  | .on _ o => [(5, .src1, o)]

/-- A register operand of an access of `2^w` bytes (R226). -/
def memUse (w : Nat) (dst vo : Bool) : Use :=
  if w ≤ 2 then (if dst then .dst1 else .src1)
  else if w = 3 then .span 2 2 true (!dst && vo) else .span 4 4 true (!dst && vo)

/-- The address operand of a memory word (R227). -/
def addrUse (sp : Nat) : Use := if sp = 1 ∨ sp = 2 then .src1 else .span 2 2 true true

/-- The uses of the operand fields of a memory word (R226, R233, R240). -/
def Mem.uses (op : Nat) (f : Mem) : List (Nat × Use × Opnd) :=
  let w := f.w.toNat
  let a := (1, addrUse f.sp.toNat, f.a)
  let d := (0, memUse w true false, f.d)
  let flag := (0, Use.span 2 2 true false, f.d)
  let x := (4, memUse w false true, f.x)
  let datum := if f.aop = 7 then (4, (if f.aty = .z64 then Use.span 4 4 true false else Use.span 2 2 true false), f.x) else x
  match op with
  | 0x90 | 0x94 => [d, a]
  | 0x91 => [a, x]
  | 0x92 | 0x96 => [d, a, datum]
  | 0x93 => [a, datum]
  | 0x95 | 0x97 => [flag, a, x]
  | 0x98 => [(0, .span 1 1 true false, f.d), (1, .src1, f.a)]
  | 0x99 => [(1, .src1, f.a), (4, .span 1 1 true false, f.x)]
  | 0x9A => [a]
  | 0x9B => [(0, .dst1, f.d), a]
  | 0x9D => [x]
  | _ => []

/-- The uses of the operand fields of a transfer word (R270). -/
def Xf.uses (op : Nat) (f : Xf) : List (Nat × Use × Opnd) :=
  let obj := (1, (if f.bsp = 0 then Use.span 2 2 true true else Use.src1), f.a)
  let d := (0, Use.dst1, f.d)
  let b := (2, Use.src1, f.b)
  let coord := (2, Use.span 5 1 true false, f.b)
  match op with
  | 0xB0 => [obj, b]
  | 0xB1 => [d, obj]
  | 0xB2 => [d, obj, b]
  | 0xB3 => [obj]
  | 0xB4 => [obj, b]
  | 0xB5 => [d, obj, b]
  | 0xB6 | 0xB7 => [obj, coord, (3, .src1, f.c)]
  | 0xB8 => [(2, .span 8 8 true false, f.b)]
  | 0xB9 => [(1, .src1, f.a)]
  | 0xBA => [d]
  | _ => []

/-- The uses of the operand fields of a tile word (R291, R292). -/
def Tl.uses (op : Nat) (f : Tl) : List (Nat × Use × Opnd) :=
  let n := fragRegs f.shape.toNat
  match op with
  | 0xC0 => [(0, .span n.1 n.1 false false, f.d), (1, .span n.2.1 n.2.1 true false, f.a),
      (2, .span n.2.2 n.2.2 true false, f.b)] ++
      (if f.usesC then [(3, (if f.shape = 7 then .span 2 2 true false else .span 1 1 true false), f.c)] else [])
  | 0xC1 | 0xC3 => [(1, .src1, f.a)]
  | _ => []

/-- One or two registers by a width in bits. -/
def widthUse (w : Option Nat) (dst : Bool) : Use :=
  if w = some 64 then .span 2 2 true (!dst) else if dst then .dst1 else .src1

/-- The uses of the operand fields of a word of format S. -/
def Sy.uses (op : Nat) (f : Sy) : List (Nat × Use × Opnd) :=
  let s := f.sel.toNat
  match op with
  | 0xDA => [(1, .span 2 2 true true, f.a)]
  | 0xE0 => [(0, widthUse (s2vWidth s) true, f.d)]
  | 0xE1 => [(1, widthUse (v2sWidth s) false, f.a)]
  | 0xE4 => [(0, widthUse (tsrWidth s) true, f.d)]
  | 0xE5 => [(1, widthUse (tsrWidth s) false, f.a)]
  | 0xE6 => [(1, .src1, f.a)]
  | 0xE8 => [(0, widthUse (tokqWidth s) true, f.d)] ++ (if s = 3 then [(1, .src1, f.a)] else [])
  | _ => []

/-- The uses of the operand fields, in the order D, A, B, C, X, guard, each with the field number that check 4 reports
(R92; the order among several failing fields is the model's, log 18). -/
def Body.uses (op : Nat) : Body → List (Nat × Use × Opnd)
  | .v3 f => (match v3Shape f.mod.toNat op with
      | some s => [(0, s.d.use f.t true, f.d), (1, s.a.use f.t false, f.a), (2, s.b.use f.t false, f.b),
          (3, s.c.use f.t false, f.c)]
      | none => []) ++ f.g.uses
  | .cvt f => [(0, (f.dArg op).use f.t true, f.d), (1, f.aArg.use f.ts false, f.a), (2, (f.bArg op).use f.ts false, f.b)] ++
      f.g.uses
  | .cbx f => [(0, .span 4 4 true false, f.d), (1, .src1, f.a)] ++ f.g.uses
  | .i24 f => (if op = 0xD7 then [(1, Use.src1, f.a)]
      else [(0, (if op = 0x26 then Arg.r32 else .ty).use f.t true, f.d), (1, Arg.ty.use f.t false, f.a)]) ++ f.g.uses
  | .l32 f => [(0, (if f.t2 = 3 ∨ op = 0x24 then .span 2 2 true false else .dst1), f.d)] ++ f.g.uses
  | .mem f => f.uses op ++ f.g.uses
  | .xf f => f.uses op ++ f.g.uses
  | .tl f => f.uses op ++ f.g.uses
  | .br f => (if op = 0xD3 then [(1, Use.span 2 2 true false, f.a)] else []) ++ f.g.uses
  | .sy f => f.uses op ++ f.g.uses

/-- The encoding of an operand (R83). -/
def Opnd.code : Opnd → Nat
  | .reg n => n.val
  | .latch k => 0xF0 + k.val
  | .vz => 0xF3
  | .vo => 0xF4
  | .kreg k => 0xF6 + k.val
  | .rsvd e => if e.val = 0 then 0xF5 else 0xF9 + e.val

/-- The operand of an encoding (R83). -/
def Opnd.ofCode (n : Nat) : Opnd :=
  if h : n < 240 then .reg ⟨n, h⟩
  else match n with
    | 0xF0 => .latch 0 | 0xF1 => .latch 1 | 0xF2 => .latch 2
    | 0xF3 => .vz | 0xF4 => .vo | 0xF5 => .rsvd 0
    | 0xF6 => .kreg 0 | 0xF7 => .kreg 1 | 0xF8 => .kreg 2 | 0xF9 => .kreg 3
    | 0xFA => .rsvd 1 | 0xFB => .rsvd 2 | 0xFC => .rsvd 3 | 0xFD => .rsvd 4 | 0xFE => .rsvd 5 | _ => .rsvd 6

/-- Check 4 of R92: the field number and encoding of the first operand that is not permitted. -/
def Body.badOpnd (regs op : Nat) (b : Body) : Option (Nat × Opnd) :=
  ((b.uses op).find? fun u => !u.2.1.permits regs u.2.2).map fun u => (u.1, u.2.2)

/-- A k register is named as an operand or as the guard (R83, R85). -/
def Body.namesK (op : Nat) (b : Body) : Bool :=
  (b.uses op).any fun u => match u.2.1, u.2.2 with | .unused, _ => false | _, .kreg _ => true | _, _ => false

/-! ### What a word reads and writes -/

/-- The guard of a word. -/
def Body.guard : Body → Guard
  | .v3 f => f.g | .cvt f => f.g | .cbx f => f.g | .i24 f => f.g | .l32 f => f.g
  | .mem f => f.g | .xf f => f.g | .tl f => f.g | .br f => f.g | .sy f => f.g

/-- `FS` of a word. -/
def Body.fs : Body → Bool
  | .mem f => f.fs
  | .tl f => f.fs
  | _ => false

/-- The lowest level that may execute a word (R89, R198, R206, R342, R344), and S for one that names a k register (R83). -/
def Body.level (op : Nat) (b : Body) : Nat :=
  let own : Nat :=
    if opSet op = .sys then (if op = 0xE7 then (match b with | .v3 f => if f.mod = 2 then 2 else 1 | _ => 1) else 1)
    else match op, b with
      | 0xE0, .sy f => if f.sel = 0x48 ∨ 0x80 ≤ f.sel.toNat then 1 else 0
      | 0xE8, .sy f => if f.sel = 2 ∨ f.sel = 0xA then 1 else 0
      | 0xEA, .v3 f => if f.mod = 2 then 1 else 0
      | _, _ => 0
  if b.namesK op then max own 1 else own

/-- The fields of a word that an instruction reads as sources: all but D, and D of a flagged store and of `KSWAP`; not the link of
`CALL`. -/
def Body.sources (op : Nat) (b : Body) : List (Use × Opnd) :=
  ((b.uses op).filter fun u => u.1 != 5 && (u.1 != 0 || op == 0x95 || op == 0x97 || op == 0xE3) && op != 0xD3).map (·.2)

/-- The destinations of a word. -/
def Body.dests (op : Nat) (b : Body) : List (Use × Opnd) :=
  ((b.uses op).filter fun u => (u.1 == 0 && op != 0x95 && op != 0x97) || op == 0xD3 && u.1 == 1).map (·.2)

/-- The registers that a use covers. -/
def useRegs : Use × Opnd → List Nat
  | (.span n _ _ _, .reg r) => (List.range n).map (r.val + ·)
  | (.unused, _) => []
  | (_, .reg r) => [r.val]
  | _ => []

/-- The registers that a word writes at its slot: none of a counting word, whose result comes later (R79), and only the high one of `MOVH`
(R155). -/
def Body.writes (op : Nat) (b : Body) : List Nat :=
  if opCounts op then [] else ((b.dests op).flatMap useRegs).drop (op == 0x24).toNat

/-- The registers that a word reads at its slot: its guard, and its sources but those of `MMA`, which reads them at its round's issue (R296). -/
def Body.readRegs (op : Nat) (b : Body) : List Nat :=
  (if op = 0xC0 then [] else (b.sources op).flatMap useRegs) ++ (match b.guard with | .on _ (.reg r) => [r.val] | _ => [])

end Sys2Proof
end

