-- ==== Sys2Proof/WellFormed.lean ====
section
/-!
DEFINITION. Which instructions are well formed: the word checks 3 and 4 of R92 in a thread with the most registers, and the
decode checks of a Truss word (R375).  An operation or event of the device has no encoding, and is always well formed.
-/
namespace Sys2Proof

/-- The opcode and fields of a Truss word (R377). -/
inductive TrussBody where
  | ta (f : TA) | tb (f : TB) | tc (f : TC)
  deriving DecidableEq, Repr

/-- The opcode map of R377, from the instruction. -/
def Instr.truss : Instr → Option (Nat × TrussBody)
  | .trussNop f => some (0x00, .tb f)
  | .trussMovi f => some (0x01, .tb f)
  | .trussAddi f => some (0x02, .tb f)
  | .trussAdd f => some (0x03, .ta f)
  | .trussMuli f => some (0x04, .tb f)
  | .trussPeer f => some (0x05, .tb f)
  | .trussParam f => some (0x06, .tb f)
  | .trussChunk f => some (0x07, .tc f)
  | .trussBra f => some (0x08, .tb f)
  | .trussBnz f => some (0x09, .tb f)
  | .trussLoop f => some (0x0A, .tb f)
  | .trussWait f => some (0x0B, .tb f)
  | .trussSig f => some (0x0C, .tb f)
  | .trussBar f => some (0x0D, .tb f)
  | .trussFin f => some (0x0E, .tb f)
  | .trussTrap f => some (0x0F, .tb f)
  | .trussSend f => some (0x10, .tc f)
  | .trussRecv f => some (0x11, .tc f)
  | .trussRed f => some (0x12, .tc f)
  | .trussRedsend f => some (0x13, .tc f)
  | .trussCopy f => some (0x14, .tc f)
  | .trussMcast f => some (0x15, .tc f)
  | _ => none

/-- The decode checks of R375 on the fields of a word: unused fields 0 (R379, R380, R383, R386, R387), element type and
operation of the reducing words, and no signal 15.  The check of a branch target needs the length of the schedule, and is
made at the load. -/
def TrussBody.ok (op : Nat) : TrussBody → Bool
  | .ta _ => op == 0x03
  | .tb f =>
    match op with
    | 0x00 | 0x0D => f.d == 0 && f.a == 0 && f.imm == 0
    | 0x01 | 0x06 => f.a == 0
    | 0x02 | 0x04 | 0x05 => true
    | 0x08 | 0x0F => f.d == 0 && f.a == 0
    | 0x09 | 0x0A => f.d == 0
    | 0x0B => f.a == 0 && f.d != 15
    | 0x0C => f.d != 15
    | 0x0E => f.d == 0 && f.a == 0 && f.imm.toNat < 2 ^ 25
    | _ => false
  | .tc f =>
    match op with
    | 0x07 => f.cb == 0 && f.xf.toNat ≤ 1 && f.xo == 0 && f.sg == 0
    | 0x10 | 0x15 => f.xf == 0 && f.xo == 0 && f.sg != 15
    | 0x11 => f.xf == 0 && f.xo == 0 && f.sg == 0
    | 0x12 => f.rp == 0 && f.xf.toNat ≤ 3 && f.xo.toNat ≤ 2 && f.sg == 0
    | 0x13 => f.xf.toNat ≤ 3 && f.xo.toNat ≤ 2 && f.sg != 15
    | 0x14 => f.rp == 0 && f.xf == 0 && f.xo == 0 && f.sg == 0
    | _ => false

/-- An instruction is well formed: some machine may issue its word. -/
def Instr.wf (i : Instr) : Bool :=
  match i.core with
  | some (op, b) => b.encOk op && (b.badOpnd 240 op).isNone
  | none =>
    match i.truss with
    | some (op, b) => b.ok op
    | none => true

end Sys2Proof
end

