-- ==== Sys2Proof/Decode.lean ====
section
/-!
DEFINITION. Decoding of core words (R80 to R92), Truss words (R377) and packets (R50), and after it the encoders.  A word is
split into fields, least significant first, by a list of widths; the encoder joins the same fields.
-/
namespace Sys2Proof

/-- The fields of a number, least significant first. -/
def fields : List Nat → Nat → List Nat
  | [], _ => []
  | w :: ws, n => n % 2 ^ w :: fields ws (n / 2 ^ w)

/-- The number that has these fields. -/
def joinFields : List Nat → List Nat → Nat
  | w :: ws, x :: xs => x % 2 ^ w + 2 ^ w * joinFields ws xs
  | _, _ => 0

/-- Why a word is no instruction: its opcode is unassigned (R90), or a field breaks check 3 (R92). -/
inductive Illegal where
  | opcode
  | encoding
  deriving DecidableEq, Repr

/-- The guard of `GE`, `GN`, `GREG` (R85); none when they are inconsistent (R81). -/
def guardOf (ge gn greg : Nat) : Option Guard :=
  if ge = 1 then some (.on (gn == 1) (Opnd.ofCode greg))
  else if gn = 0 ∧ greg = 0 then some .always else none

/-- The hold of `HS` and `HO` (R86); none when they are inconsistent. -/
def holdOf (hs ho : Nat) : Option Hold :=
  let src : HoldSrc := match ho with | 0 => .a | 1 => .b | 2 => .c | _ => .r
  match hs with
  | 0 => if ho = 0 then some .none else none
  | 1 => some (.keep 0 src)
  | 2 => some (.keep 1 src)
  | _ => some (.keep 2 src)

/-- The field widths of each format, least significant first (R80, R174, R178). -/
def Fmt.widths : Fmt → List Nat
  | .v3 => [1, 1, 2, 2, 4, 4, 8, 8, 8, 8, 8, 1, 1, 8]
  | .cvt | .cbx => [1, 1, 2, 2, 4, 4, 4, 4, 8, 8, 8, 8, 1, 1, 8]
  | .i24 => [24, 2, 4, 8, 8, 8, 1, 1, 8]
  | .l32 => [32, 4, 2, 8, 8, 1, 1, 8]
  | .mem => [12, 1, 2, 1, 3, 3, 8, 8, 8, 8, 1, 1, 8]
  | .xf => [5, 1, 2, 6, 8, 8, 8, 8, 8, 1, 1, 8]
  | .tl => [2, 1, 3, 5, 3, 8, 8, 8, 8, 8, 1, 1, 8]
  | .br => [16, 8, 22, 8, 1, 1, 8]
  | .sy => [16, 14, 8, 8, 8, 1, 1, 8]

/-- The fields of a word of a format, its reserved bits 0 (check 3 of R92; `FS` 0 where the format's opcodes count no
flag). -/
def Fmt.parse : Fmt → List Nat → Option Body
  | .v3, [r, fs, ho, hs, mod, t, c, b, a, d, greg, gn, ge, _] =>
    if r = 0 ∧ fs = 0 then do
      let g ← guardOf ge gn greg
      let h ← holdOf hs ho
      return .v3 { g, d := .ofCode d, a := .ofCode a, b := .ofCode b, c := .ofCode c, t := .ofCode t, mod := .ofNat 4 mod, h }
    else none
  | .cvt, [r, fs, ho, hs, mod, t, ts, r', b, a, d, greg, gn, ge, _] =>
    if r = 0 ∧ fs = 0 ∧ r' = 0 then do
      let g ← guardOf ge gn greg
      let h ← holdOf hs ho
      return .cvt { g, d := .ofCode d, a := .ofCode a, b := .ofCode b, t := .ofCode t, ts := .ofCode ts, mod := .ofNat 4 mod, h }
    else none
  | .cbx, [r, fs, ho, hs, mod, t, slot, r', b, a, d, greg, gn, ge, _] =>
    if r = 0 ∧ fs = 0 ∧ r' = 0 then do
      let g ← guardOf ge gn greg
      let h ← holdOf hs ho
      return .cbx { g, d := .ofCode d, a := .ofCode a, b := .ofCode b, t := .ofCode t, slot := .ofNat 4 slot,
                    mod := .ofNat 4 mod, h }
    else none
  | .i24, [imm, mod, t, a, d, greg, gn, ge, _] => do
    let g ← guardOf ge gn greg
    return .i24 { g, d := .ofCode d, a := .ofCode a, t := .ofCode t, mod := .ofNat 2 mod, imm := .ofNat 24 imm }
  | .l32, [imm, mod, t2, d, greg, gn, ge, _] => do
    let g ← guardOf ge gn greg
    return .l32 { g, d := .ofCode d, t2 := .ofNat 2 t2, mod := .ofNat 4 mod, imm := .ofNat 32 imm }
  | .mem, [off, sx, cp, fs, sp, w, x, a, d, greg, gn, ge, _] => do
    let g ← guardOf ge gn greg
    return .mem { g, d := .ofCode d, a := .ofCode a, x := .ofCode x, w := .ofNat 3 w, sp := .ofNat 3 sp, fs := fs == 1,
                  cp := .ofNat 2 cp, sx := sx == 1, off := .ofNat 12 off }
  | .xf, [mod, fs, ch, tmpl, c, b, a, d, greg, gn, ge, _] =>
    if fs = 0 then do
      let g ← guardOf ge gn greg
      return .xf { g, d := .ofCode d, a := .ofCode a, b := .ofCode b, c := .ofCode c, tmpl := .ofNat 6 tmpl, ch := .ofNat 2 ch,
                   mod := .ofNat 5 mod }
    else none
  | .tl, [r, fs, bs, shape, j, c, b, a, d, greg, gn, ge, _] =>
    if r = 0 then do
      let g ← guardOf ge gn greg
      return .tl { g, d := .ofCode d, a := .ofCode a, b := .ofCode b, c := .ofCode c, j := .ofNat 3 j, shape := .ofNat 5 shape,
                   bs := .ofNat 3 bs, fs := fs == 1 }
    else none
  | .br, [imm, a, off, greg, gn, ge, _] => do
    let g ← guardOf ge gn greg
    return .br { g, off := .ofNat 22 off, a := .ofCode a, imm := .ofNat 16 imm }
  | .sy, [sel, r, a, d, greg, gn, ge, _] =>
    if r = 0 then do
      let g ← guardOf ge gn greg
      return .sy { g, d := .ofCode d, a := .ofCode a, sel := .ofNat 16 sel }
    else none
  | _, _ => none

/-- The opcode of a core word, bits 63:56. -/
def wordOp (w : DWord) : Nat := w.toNat / 2 ^ 56

/-- The instruction of a core word: checks 1 and 3 of R92. -/
def decodeWord (w : DWord) : Except Illegal Instr :=
  match opFmt (wordOp w) with
  | none => .error .opcode
  | some fmt =>
    match fmt.parse (fields fmt.widths w.toNat) with
    | none => .error .encoding
    | some b => if b.encOk (wordOp w) then
        (match ofBody (wordOp w) b with | some i => .ok i | none => .error .opcode) else .error .encoding

/-- The instruction of a Truss word (R375, R377); none where a decode check fails. -/
def decodeTruss (w : DWord) : Option Instr :=
  let op := w.toNat / 2 ^ 58
  let b : Option TrussBody :=
    if op = 0x03 then
      match fields [46, 4, 4, 4, 6] w.toNat with
      | [r, b, a, d, _] => if r = 0 then some (.ta { d := .ofNat 4 d, a := .ofNat 4 a, b := .ofNat 4 b }) else none
      | _ => none
    else if op = 0x07 ∨ (0x10 ≤ op ∧ op ≤ 0x15) then
      match fields [24, 4, 2, 4, 4, 4, 4, 6, 6, 6] w.toNat with
      | [r, sg, xo, xf, rp, rb, ra, cb, ca, _] =>
        if r = 0 then some (.tc { ca := .ofNat 6 ca, cb := .ofNat 6 cb, ra := .ofNat 4 ra, rb := .ofNat 4 rb, rp := .ofNat 4 rp,
                                  xf := .ofNat 4 xf, xo := .ofNat 2 xo, sg := .ofNat 4 sg }) else none
      | _ => none
    else if op ≤ 0x0F then
      match fields [48, 2, 4, 4, 6] w.toNat with
      | [imm, r, a, d, _] => if r = 0 then some (.tb { d := .ofNat 4 d, a := .ofNat 4 a, imm := .ofNat 48 imm }) else none
      | _ => none
    else none
  match b with
  | none => none
  | some b =>
    if b.ok op then
      match op, b with
      | 0x00, .tb f => some (.trussNop f)
      | 0x01, .tb f => some (.trussMovi f)
      | 0x02, .tb f => some (.trussAddi f)
      | 0x03, .ta f => some (.trussAdd f)
      | 0x04, .tb f => some (.trussMuli f)
      | 0x05, .tb f => some (.trussPeer f)
      | 0x06, .tb f => some (.trussParam f)
      | 0x07, .tc f => some (.trussChunk f)
      | 0x08, .tb f => some (.trussBra f)
      | 0x09, .tb f => some (.trussBnz f)
      | 0x0A, .tb f => some (.trussLoop f)
      | 0x0B, .tb f => some (.trussWait f)
      | 0x0C, .tb f => some (.trussSig f)
      | 0x0D, .tb f => some (.trussBar f)
      | 0x0E, .tb f => some (.trussFin f)
      | 0x0F, .tb f => some (.trussTrap f)
      | 0x10, .tc f => some (.trussSend f)
      | 0x11, .tc f => some (.trussRecv f)
      | 0x12, .tc f => some (.trussRed f)
      | 0x13, .tc f => some (.trussRedsend f)
      | 0x14, .tc f => some (.trussCopy f)
      | 0x15, .tc f => some (.trussMcast f)
      | _, _ => none
    else none

/-- The instruction of a packet of queue `q` by its `TYPE` (R50); none for a reserved type (BADTYPE). -/
def decodePacket (q : Nat) (p : Packet) : Option Instr :=
  match (p.words.headD 0).toNat % 256 with
  | 0 => some (.nopPacket q p)
  | 1 => some (.launch q p)
  | 2 => some (.waitPacket q p)
  | 3 => some (.signal q p)
  | 4 => some (.copyPacket q p)
  | 5 => some (.loadsched q p)
  | 6 => some (.runsched q p)
  | 7 => some (.depend q p)
  | 8 => some (.stepmark q p)
  | 9 => some (.publish q p)
  | 10 => some (.collect q p)
  | _ => none

/-- The instruction that the decoder reads from a core word of `nbits` bits (R80: every word has 64); none where a word check
of R92 (1, 3 or 4, in a thread of 240 registers) refuses it. -/
def decodeTableWord (nbits w : Nat) : Option Instr :=
  if nbits ≤ 64 then
    match decodeWord (BitVec.ofNat 64 (w % 2 ^ nbits)) with
    | .ok i => if i.wf then some i else none
    | .error _ => none
  else none

/-! ### The encoder -/

/-- `GREG`, `GN`, `GE` of a guard. -/
def Guard.codes : Guard → List Nat
  | .always => [0, 0, 0]
  | .on neg o => [o.code, neg.toNat, 1]

/-- `HO`, `HS` of a hold. -/
def Hold.codes : Hold → List Nat
  | .none => [0, 0]
  | .keep l s => [match s with | .a => 0 | .b => 1 | .c => 2 | .r => 3, l.val + 1]

/-- The format and the fields of a word, least significant first. -/
def Body.codes (op : Nat) : Body → Fmt × List Nat
  | .v3 f => (.v3, [0, 0] ++ f.h.codes ++ [f.mod.toNat, f.t.code, f.c.code, f.b.code, f.a.code, f.d.code] ++ f.g.codes ++ [op])
  | .cvt f => (.cvt, [0, 0] ++ f.h.codes ++ [f.mod.toNat, f.t.code, f.ts.code, 0, f.b.code, f.a.code, f.d.code] ++ f.g.codes ++
      [op])
  | .cbx f => (.cbx, [0, 0] ++ f.h.codes ++ [f.mod.toNat, f.t.code, f.slot.toNat, 0, f.b.code, f.a.code, f.d.code] ++ f.g.codes ++
      [op])
  | .i24 f => (.i24, [f.imm.toNat, f.mod.toNat, f.t.code, f.a.code, f.d.code] ++ f.g.codes ++ [op])
  | .l32 f => (.l32, [f.imm.toNat, f.mod.toNat, f.t2.toNat, f.d.code] ++ f.g.codes ++ [op])
  | .mem f => (.mem, [f.off.toNat, f.sx.toNat, f.cp.toNat, f.fs.toNat, f.sp.toNat, f.w.toNat, f.x.code, f.a.code, f.d.code] ++
      f.g.codes ++ [op])
  | .xf f => (.xf, [f.mod.toNat, 0, f.ch.toNat, f.tmpl.toNat, f.c.code, f.b.code, f.a.code, f.d.code] ++ f.g.codes ++ [op])
  | .tl f => (.tl, [0, f.fs.toNat, f.bs.toNat, f.shape.toNat, f.j.toNat, f.c.code, f.b.code, f.a.code, f.d.code] ++ f.g.codes ++
      [op])
  | .br f => (.br, [f.imm.toNat, f.a.code, f.off.toNat] ++ f.g.codes ++ [op])
  | .sy f => (.sy, [f.sel.toNat, 0, f.a.code, f.d.code] ++ f.g.codes ++ [op])

/-- The word of a core instruction (R80). -/
def Body.word (op : Nat) (b : Body) : DWord :=
  BitVec.ofNat 64 (joinFields (b.codes op).1.widths (b.codes op).2)

/-- The word of a core or Truss instruction; 0 for a step that has no encoding. -/
def encode (i : Instr) : DWord :=
  match i.core with
  | some (op, b) => b.word op
  | none =>
    match i.truss with
    | some (op, .ta f) => .ofNat 64 (joinFields [46, 4, 4, 4, 6] [0, f.b.toNat, f.a.toNat, f.d.toNat, op])
    | some (op, .tb f) => .ofNat 64 (joinFields [48, 2, 4, 4, 6] [f.imm.toNat, 0, f.a.toNat, f.d.toNat, op])
    | some (op, .tc f) => .ofNat 64 (joinFields [24, 4, 2, 4, 4, 4, 4, 6, 6, 6]
        [0, f.sg.toNat, f.xo.toNat, f.xf.toNat, f.rp.toNat, f.rb.toNat, f.ra.toNat, f.cb.toNat, f.ca.toNat, op])
    | none => 0

end Sys2Proof
end

