-- ==== Sys2Proof/Config.lean ====
section
/-!
DEFINITION. What an implementation fixes and the manual does not give: free values, each an opaque constant with no
body, so that nothing in Lean can evaluate one (logs 4, 7, 10, 13, 102, 111 and 113).
-/
namespace Sys2Proof.Config

/-- A free 64-bit value, applied to the state's free-value counter (log 4). -/
opaque freeValue : Nat → BitVec 64

/-- The fixed hash of R224: from the bits 51:7 of a line's address, which of the 32 × k slices of its home dies. -/
opaque homeHash : Nat → Nat

/-- The set of an L2 slice that holds a line (R223): from the bits 51:7 of its address (log 10). -/
opaque l2Set : Nat → Nat

/-- The LLC slice and set that hold a line (R223): from the bits 51:7 of its address (log 10). -/
opaque llcSet : Nat → Nat

/-- Which entry of a full TLB a new translation replaces (R254), applied to the free-value counter (log 7). -/
opaque tlbVictim : Nat → Nat

/-- The set of a shared TLB that holds a translation (R253), from its `ASID` and page (log 7). -/
opaque tlbSet : Nat → Nat → Nat

/-- What a 12-bit field of watts reads as for a quantity above 4,095 (R333), which the spec does not say (log 102). -/
opaque wideWatts : Nat → Nat

/-- What the four bits of `DEPTH` read as for a queue of 16 transfers (R284), which the spec does not say (log 111). -/
opaque apDepthFull : Nat

/-- SHAKE256 taken to 64 bytes (R409, R411); the spec names it and does not define it (log 13). -/
opaque shake256 : List Byte → BitVec 512

/-- Verification of an ML-DSA-65 signature: key, message, signature (R31, R409; log 13). -/
opaque mldsaVerify : List Byte → List Byte → List Byte → Bool

/-- The ML-DSA-65 signature of the device identity key over a message (R415; log 13): 3,309 bytes, as a number. -/
opaque mldsaSign : List Byte → BitVec (8 * 3309)

/-- The regulator rails of the package (R418), whose number the spec does not say (log 113). -/
opaque rails : BitVec 8

/-- Opening of an AES-256-GCM frame: key, nonce, additional data, ciphertext, tag (R65; log 13). -/
opaque gcmOpen : List DWord → List Byte → List Byte → List Byte → List Byte → Option (List Byte)

/-- The digest of the vendor key fused in one-time-programmable memory (R409). -/
opaque fusedKeyDigest : BitVec 512

/-- The version of the boot ROM (R414). -/
opaque romVersion : BitVec 32

end Sys2Proof.Config
end

