-- ==== Sys2Proof/Machine/State.lean ====
section
/-!
DEFINITION. The state of the package as plain data: everything the spec names, in the terms of INVENTORY.md, and the state
after reset.  Tables are association lists in one canonical form (`Tbl`): keys strictly rising, no entry equal to the
default.
-/
namespace Sys2Proof.Machine

/-! ### Sparse tables -/

/-- A table by natural-number key; a key that is not listed has the table's default. -/
abbrev Tbl (α : Type) := List (Nat × α)

/-- The entry of a key. -/
def Tbl.get {α : Type} (d : α) : Tbl α → Nat → α
  | [], _ => d
  | (k, v) :: t, n => if k = n then v else Tbl.get d t n

/-- The table without a key. -/
def Tbl.del {α : Type} : Tbl α → Nat → Tbl α
  | [], _ => []
  | (k, v) :: t, n => if k = n then Tbl.del t n else (k, v) :: Tbl.del t n

/-- The table with an entry put before the first greater key. -/
def Tbl.ins {α : Type} : Tbl α → Nat → α → Tbl α
  | [], n, x => [(n, x)]
  | (k, v) :: t, n, x => if n ≤ k then (n, x) :: (k, v) :: t else (k, v) :: Tbl.ins t n x

/-- The table with one entry replaced; an entry equal to the default is removed. -/
def Tbl.set {α : Type} [DecidableEq α] (d : α) (t : Tbl α) (n : Nat) (x : α) : Tbl α :=
  if x = d then Tbl.del t n else Tbl.ins (Tbl.del t n) n x

/-- The canonical form: every key above `lo`'s bound and rising, no entry equal to the default. -/
def Tbl.wfFrom {α : Type} [DecidableEq α] (d : α) : Nat → Tbl α → Bool
  | _, [] => true
  | lo, (k, v) :: t => decide (lo ≤ k) && decide (v ≠ d) && Tbl.wfFrom d (k + 1) t

/-- The canonical form of a table. -/
def Tbl.wf {α : Type} [DecidableEq α] (d : α) (t : Tbl α) : Bool := Tbl.wfFrom d 0 t

/-! ### Memory -/

/-- What a location that nothing has written reads as (log 1). -/
def Memory.blank : Byte := 0

/-- Memory: a list of (location, byte) pairs.  Locations below 2^52 are physical addresses (R249); the scratchpad byte `o` of
core `c` is location 2^52 + 2^30 c + o. -/
abbrev Memory := List Host.Cell

/-- The canonical form of memory. -/
def Memory.wf (m : Memory) : Bool := Tbl.wf Memory.blank m

/-! ### Threads, gangs, blocks, grids (04, 08, 14) -/

/-- Privilege levels (R7). -/
inductive Lvl where
  | u | s | f
  deriving DecidableEq, Repr

/-- Thread states (R102); Flag-wait is a Ready thread whose next header names a flag that is not zero, and In handler is
`inh`.  `entering` waits at its handler entry for its flags (R110, R115). -/
inductive TSt where
  | ready | blocked | stalled | entering | halted | exited | never
  deriving DecidableEq, Repr

/-- A latch: contents and remaining validity (R87). -/
structure Latch where
  val : Word := 0
  valid : Nat := 0
  deriving DecidableEq, Repr

/-- A deferred error (R229): cause, `TVAL`, place in the order of issue, the NAK code of the record (R358), and the access's address (R260). -/
structure DErr where
  code : Nat
  tval : DWord
  seq : Nat
  nak : Nat := 0
  va : Nat := 0
  /-- Pending when the thread entered its handler: raised after the return (R229). -/
  outer : Bool := false
  wr : Bool := false
  pc : DWord := 0
  deriving DecidableEq, Repr

/-- What a pending result waits for. -/
inductive Src where
  /-- The memory of this package: the value is known. -/
  | here
  /-- The response of a fabric request, by tag. -/
  | fabric (tag : Nat)
  /-- The members of a multicast that have not answered, as (tag, member). -/
  | mcast (tags : List (Nat × Nat))
  /-- The matrix operation of this number. -/
  | mma (n : Nat)
  deriving DecidableEq, Repr

/-- A pending result (R79, R229, R295): the flag it decrements, the first register written and the words (none when nothing is
written), the sign extension of a narrow fabric load, and the error it carries. -/
structure Pend where
  flag : Nat
  dst : Opnd
  vals : List Word
  src : Src
  err : Option DErr := none
  seq : Nat := 0
  va : Nat := 0
  w : Nat := 0
  sx : Bool := false
  failed : Nat := 0
  nak : Nat := 0
  /-- The flag's address of an `FST` (R236). -/
  fva : Nat := 0
  /-- The slot it came from, where that counts: the lanes of a register word that load together (R118), and a sample (R402); else 0. -/
  tok : Nat := 0
  /-- The other lane of its register words loads with it, and has not failed (R118). -/
  both : Bool := false
  /-- The PC value of the word, of a fabric operation. -/
  pc : DWord := 0
  deriving DecidableEq, Repr

/-- Why a thread is Blocked (R102). -/
inductive Wait where
  | none
  /-- `SLEEP` until a package time, and the PC to go on at. -/
  | sleep (t : Nat) (next : DWord)
  /-- `BWAIT` on the object at a location, and the PC to go on at. -/
  | barrier (loc : Nat) (next : DWord)
  /-- `MMA` on a join register. -/
  | join (j : Nat)
  deriving DecidableEq, Repr

/-- How far the save of a thread has come (R34, step 4; log 94): not begun, in its PREEMPT handler, done. -/
inductive Saving where
  | none | inHandler | done
  deriving DecidableEq, Repr

/-- A thread (R44, R98, R102, R113). -/
structure Thr where
  pc : DWord := 0
  lvl : Lvl := .u
  st : TSt := .never
  regs : List Word := []
  flags : List Nat := [0, 0, 0, 0, 0, 0, 0, 0, 0, 0, 0, 0]
  latches : List Latch := [{}, {}, {}]
  shadow : List Latch := [{}, {}, {}]
  kregs : List Word := [0, 0, 0, 0]
  edge : Nat := 0
  helper : Bool := false
  deferred : Bool := false
  wait : Wait := .none
  tpc : DWord := 0
  tcode : Nat := 0
  tspl : Bool := false
  thlp : Bool := false
  tval : DWord := 0
  tkid : DWord := 0
  topc : DWord := 0
  pp : Nat := 0
  inh : Bool := false
  tst : Nat := 0
  hlt : Bool := false
  pend : List Pend := []
  errs : List DErr := []
  /-- A posted PREEMPT, with its `TVAL`. -/
  preempt : Option Nat := none
  /-- A posted halt: true for the trap form. -/
  halt : Option Bool := none
  /-- The debugger's STEP1 lets the thread run one slot before it halts again (R390). -/
  stepping : Bool := false
  /-- The slot that STEP1 let it run has trapped: it halts at the first clause boundary after its return (R116, R390). -/
  stepDue : Bool := false
  /-- The token of the replayable fault it waits on. -/
  token : Option Nat := none
  /-- How far its save has come (R34, step 4; log 94). -/
  save : Saving := .none
  /-- Clauses that its gang or its lane has issued while it was Ready and not deferred, and did not issue (R109; log 109). -/
  waited : Nat := 0
  deriving DecidableEq, Repr

/-- A join register (R111), with its round (R112, R295): the PC of the round and the PC after it, the `MMA` and the flag it counts
once a thread has signed, and the last signer. -/
structure Join where
  decl : Bool := false
  issuing : Bool := false
  members : Nat := 0
  signed : Nat := 0
  rpc : Option DWord := none
  next : DWord := 0
  ins : Option (Tl × Nat) := none
  last : Nat := 0
  deriving DecidableEq, Repr

/-- A gang: joins, codebook slots of 16 entries, relief count (R108), clause issues of its core since its ready threads last
issued (R104), register words marked poisoned, and with latent uncorrectable and correctable errors, as 256 × pair + register (R118). -/
structure Gang where
  joins : List Join := [{}, {}, {}, {}, {}, {}, {}, {}]
  cb : Tbl Half := []
  relief : Nat := 0
  starve : Nat := 0
  poison : List Nat := []
  latent : List Nat := []
  soft : List Nat := []
  deriving DecidableEq, Repr

/-- A resident block (R42, R99 to R101). -/
structure Blk where
  live : Bool := false
  core : Nat := 0
  gid : Nat := 0
  bx : Nat := 0
  by' : Nat := 0
  bz : Nat := 0
  crank : Nat := 0
  /-- The blocks of its block cluster, rank 0 first. -/
  peers : List Nat := []
  spadBase : Nat := 0
  placed : Nat := 0
  /-- Core cycles of its die at placement. -/
  cyc : Nat := 0
  order : Nat := 0
  /-- Retired, and kept until its block cluster has retired (R100). -/
  done : Bool := false
  /-- The non-helper thread that exited last. -/
  lastTid : Nat := 0
  deriving DecidableEq, Repr

/-- A tile descriptor (R238). -/
structure Tile where
  param : Nat
  hv : Bool
  hslot : Nat
  elt : Nat
  role : Nat
  shape : Nat
  rows : Nat
  cols : Nat
  stride : Nat
  mx : Int
  my : Int
  mi : Int
  m0 : Int
  nx : Int
  ny : Int
  ni : Int
  n0 : Int
  deriving DecidableEq, Repr

/-- A splice map entry (R320): the spliced address of a word, its origin (true for the consumer), whether it was changed, and
its original kernel id and address. -/
structure Origin where
  addr : Nat
  c : Bool
  ch : Bool
  kid : DWord
  opc : Nat
  deriving DecidableEq, Repr

/-- A grid (R303, R304). -/
structure Grid where
  live : Bool := false
  cid : Nat := 0
  q : Nat := 0
  idx : Nat := 0
  num : Nat := 0
  code : Nat := 0
  text : Nat := 0
  textLen : Nat := 0
  entry : Nat := 0
  kid : DWord := 0
  regs : Nat := 8
  spad : Nat := 0
  bdx : Nat := 1
  bdy : Nat := 1
  bdz : Nat := 1
  csize : Nat := 1
  gx : Nat := 1
  gy : Nat := 1
  gz : Nat := 1
  ming : Nat := 0
  params : List Byte := []
  /-- The consumer's snapshot of a spliced pair, with its place (R315). -/
  cparams : Nat × List Byte := (0, [])
  tiles : List Tile := []
  /-- Linear number of the next block to place. -/
  next : Nat := 0
  retired : Nat := 0
  edge : Nat := 0
  splok : Bool := false
  /-- The splice cache entry it runs, and the place of the spliced text. -/
  spl : Option Nat := none
  handles : List Nat := []
  /-- Records of a collector launch, one per thread: payload, edge id, block x, y, z (R308). -/
  recs : List (List Nat) := []
  /-- The collector node of a gang. -/
  node : Option Nat := none
  /-- The consumer's packet of a spliced pair (R319). -/
  pair : Option Nat := none
  /-- Blocks of the grid have been saved and are not yet restored (R37). -/
  saved : Bool := false
  /-- What the save area does not hold of the saved blocks: the errors pending at `PREEMPT`, with linear block and slot (R229), and the
  blocks that had retired and were kept for their block cluster (R57, R100). -/
  errs : List (Nat × Nat × DErr) := []
  dones : List Nat := []
  /-- The splice map has been written (R320). -/
  mapOut : Bool := false
  deriving DecidableEq, Repr

/-! ### Cores (04, 12, 13, 15) -/

/-- The key of an entry of a core's PC table (R103): grid, PC, level, and the gang of a gang-scoped clause (R105). -/
structure EntKey where
  gid : Nat
  pc : DWord
  lvl : Lvl
  gang : Option Nat
  deriving DecidableEq, Repr

/-- One dimension of a transfer template (R275): extent, stride, box. -/
structure Dim where
  dim : Nat
  str : Nat
  box : Nat
  deriving DecidableEq, Repr

/-- A transfer template as read (R275). -/
structure Tmpl where
  tbase : Nat
  hv : Bool
  handle : Nat
  v : Bool
  edge : Nat
  elt : Nat
  dk : Nat
  esz : Nat
  rank : Nat
  fill : Nat
  order : Nat
  pitch : Nat
  dims : List Dim
  deriving DecidableEq, Repr

/-- A transfer of a BTU channel (R278 to R282). -/
structure Xfer where
  /-- The starting thread; none for the aperture. -/
  tid : Option Nat
  cid : Nat
  /-- Template number and PC of the starting word. -/
  num : Nat
  pc : DWord
  tmpl : Tmpl
  store : Bool
  coord : List Int
  /-- Location of scratchpad address 0 of the box's region, and the address C in it. -/
  base : Nat
  c : Nat
  /-- Location and address of the barrier object. -/
  obj : Option (Nat × Nat)
  edge : Nat
  seq : Nat
  /-- Elements delivered. -/
  done : List Nat
  /-- A COPY packet's queue, ring index and destination (R53). -/
  copy : Option (Nat × Nat × Nat) := none
  deriving DecidableEq, Repr

/-- An issue group in progress (R106): the address and word of the header, the slot next to run, its members, how often the slot has been
replayed (R261, R402), and the transfers that the slot has started and that wait for a place in their channel's queue (R280). -/
structure Group where
  addr : Nat
  hdr : DWord
  slot : Nat
  members : List Nat
  replays : Nat := 0
  waitX : List Xfer := []
  deriving DecidableEq, Repr

/-- A fault record (R260). -/
structure FRec where
  token : Nat := 0
  cause : Nat
  agent : Nat
  rd : Bool := false
  wr : Bool := false
  replay : Bool := false
  va : Nat
  lanes : Nat := 0
  grid : Nat := 0
  pc : DWord := 0
  kid : DWord := 0
  opc : DWord := 0
  core : Nat := 0
  nak : Nat := 0
  deriving DecidableEq, Repr

/-- A group that is Fault-stalled at a slot or header (R106, R261): its fault's token and context, its core, the group, the members
whose access is absent with its address, the record, and whether the record is written (R259). -/
structure FStall where
  token : Nat
  cid : Nat
  core : Nat
  grp : Group
  absent : List (Nat × Nat)
  rec' : FRec
  written : Bool
  /-- The slot is one that the samplers count (R402). -/
  counts : Bool := false
  deriving DecidableEq, Repr

/-- A matrix operation: its number, and the signer threads that hold a pending result of it. -/
structure MuOp where
  num : Nat
  outs : List Nat
  deriving DecidableEq, Repr

/-- A BTU channel (R280, R283, R284). -/
structure Chan where
  xs : List Xfer := []
  faulted : Bool := false
  c01 : DWord := 0
  c23 : DWord := 0
  c4 : DWord := 0
  bar : DWord := 0
  spad : DWord := 0
  treason : Nat := 0
  lasterr : Nat := 0
  deriving DecidableEq, Repr

/-- A sample that waits for its slot's last access (R402): the slot, its threads, the context, the lane that it names, and the words of the record:
word 0 without `LAST`, word 1, linear block index, PC, original PC, address, original `KID`. -/
structure Sample where
  tok : Nat
  tids : List Nat
  cid : Nat
  lane : Nat
  words : List Nat
  deriving DecidableEq, Repr

/-- A compute core (R5). -/
structure Core where
  grp : Option Group := none
  /-- Groups whose slot stalls, while other groups issue, and the group that the core last ran a slot of (R102, R280; log 110). -/
  parked : List Group := []
  last : Option Group := none
  /-- The held entries of the PC table, at most 64 (R103). -/
  table : List EntKey := []
  /-- Groups whose fault is resolved and that replay their slot (R261). -/
  replay : List Group := []
  /-- Bucket level in 1/256 token. -/
  bucket : Int := 0
  /-- The clause that waits for tokens (R328): its entry and the threads of its group. -/
  stall : Option (EntKey × List Nat) := none
  tokstall : Nat := 0
  stalls : Nat := 0
  charged : Nat := 0
  stalled : Nat := 0
  retired : Bool := false
  /-- Operation in progress and operations waiting (R288). -/
  mu : List MuOp := []
  /-- The operation at the head of `mu` has started. -/
  muBusy : Bool := false
  /-- The number of the next operation. -/
  muCtr : Nat := 0
  /-- Started operations whose results are not written. -/
  muOut : List MuOp := []
  chans : List Chan := [{}, {}, {}, {}]
  issues : Nat := 0
  /-- Memory slots counted since the last sample (R402). -/
  samples : Nat := 0
  sampled : List Sample := []
  testing : Bool := false
  deriving DecidableEq, Repr

/-- A core cluster (R101). -/
structure Ccl where
  awake : Bool := false
  waking : Bool := false
  since : Nat := 0
  deriving DecidableEq, Repr

/-! ### Contexts (01, 10, 11, 18) -/

/-- An edge record (R397), with the `PTAG` of the packet that made it (R50; log 105). -/
structure Edge where
  kind : Nat := 0
  waiter : Nat := 0
  prod : Nat := 0
  obj : Nat := 0
  pred : Nat := 0
  time : Nat := 0
  tag : Nat := 0
  deriving DecidableEq, Repr

/-- A context (R20 to R33). -/
structure Ctx where
  state : Nat := 0
  fcause : Nat := 0
  cbusy : Bool := false
  cstat : Nat := 0
  func : Nat := 0
  ptmo : Nat := 10
  dies : Nat := 0
  prio : Nat := 0
  slice : Nat := 0
  asid : Nat := 0
  root : Nat := 0
  v : Bool := false
  himg : Nat := 0
  tvec : Nat := 0
  savebase : Nat := 0
  savelen : Nat := 0
  tmplbase : Nat := 0
  tracebase : Nat := 0
  faultq : Nat := 0
  /-- A saved image is held (R30). -/
  image : Bool := false
  seq : Nat := 0
  why : Nat := 0
  sliceAt : Nat := 0
  ptmoAt : Nat := 0
  /-- When it last left Running; none before its first ENABLE, from which a context that has never run waits (R33, log 93). -/
  leftRun : Option Nat := none
  rrbase : List DWord := [0, 0, 0, 0, 0, 0, 0, 0]
  rrctl : List DWord := [0, 0, 0, 0, 0, 0, 0, 0]
  lockql2 : Nat := 0
  lockqllc : Nat := 0
  pstat : Nat := 0
  pbusy : Bool := false
  /-- The page of the command in progress: first address and bytes (R263). -/
  pgpage : Nat × Nat := (0, 0)
  pgva : DWord := 0
  pgpa : DWord := 0
  pgarg : DWord := 0
  /-- Step in progress and its start, marks held, steps that wait for their walk (R400, R401). -/
  step : Option DWord := none
  stepAt : Nat := 0
  closed : List (DWord × Nat × Nat × Nat) := []
  /-- Answers to the walk's EDGEQs: edge id, 0 held, 1 not held or 2 failed, and the record (R399, R401). -/
  answers : List (Nat × Nat × Edge) := []
  drops : Nat := 0
  /-- Bytes of the trace buffer and of the handler image, as BIND found `TSZ` and `SIGOFF` (R31, R265). -/
  traceLen : Nat := 0
  imgLen : Nat := 0
  /-- Word 0x08 of the trace header as it stood when its page left (R265). -/
  traceWord : Nat := 0
  traceRec : Bool := false
  lastTime : Nat := 0
  deriving DecidableEq, Repr

/-- The moves of the model's agents, in the order the agenda gives (log 2). -/
inductive Move where
  /-- A core runs its next slot, or forms its next issue group. -/
  | core (c : Nat)
  /-- A CP thread begins the packet at the read index of its queue. -/
  | cp (q : Nat)
  /-- A Truss engine executes the next word of its slot. -/
  | engine (e : Nat)
  /-- An operation or event. -/
  | event (i : Instr)
  /-- Package time goes on. -/
  | elapse (ns : Nat)
  /-- An error arises in a register word, correctable or not (R118). -/
  | regError (soft : Bool) (bid gang pair reg : Nat)
  /-- An error arises in a 32-byte sector, correctable, which scrub finds, or not (R256, R335). -/
  | memError (soft : Bool) (sector : Nat)
  /-- An error in storage leaves another integrity tag with a 128-byte line (R416). -/
  | tagError (line : Nat) (tag : BitVec 32)
  /-- The sensors come to see other values (R418; log 113). -/
  | sense (sn : Sensors)
  /-- The module's recovery strap is held, or let go (R410). -/
  | strap (held : Bool)
  /-- What training finds at a position of the twelve HBM4 stacks from now on (R407). -/
  | stack (i : Nat) (x : Stack)
  /-- What the boot firmware writes from now on (R407, step 3). -/
  | bootCfg (c : BootCfg)
  /-- Firmware raises the fused minimum to the `SVN` of the image it runs (R409). -/
  | raiseSvn
  /-- The far end of a link refuses the flit of a link sequence number (R350). -/
  | linkReplay (p seq : Nat)
  /-- Firmware writes an entry of the member table (R339, R365): rank, device number, address. -/
  | memberEntry (rank gdn addr : Nat)
  /-- Firmware writes an entry of the route table (R360). -/
  | routeEntry (m : Nat) (e : DWord)
  /-- Firmware loads a member's incarnation (R361). -/
  | incEntry (m inc : Nat)
  /-- A write of the hardware that waited for a Migrating page (R264): bytes at an address of a context, with their mark. -/
  | put (cid va : Nat) (bs : List Byte) (edge : Nat)
  /-- A post (R279) that waited for its object's page: bytes. -/
  | post (cid va n : Nat)
  /-- A delivery that waited for its object's page: bytes, agent, edge id. -/
  | deliver (cid va n lid edge : Nat)
  /-- Signal updates that waited are tried again (R219, R264). -/
  | signals
  /-- The operations of a schedule slot that waited are tried again (R264, R385). -/
  | sends (n : Nat)
  /-- A command frame for a queue whose ring migrates is checked again (R66, R208, R264). -/
  | ingress (q : Nat) (bytes : List Byte)
  /-- The writes that waited for a frame switch proceed: those whose own page entry still names the old frame go to the new one, until `none`
  (R264): old frame, new frame, bytes. -/
  | redirect (r : Option (Nat × Nat × Nat))
  deriving DecidableEq, Repr

/-- A record of the held-state table (R255, R256): state 2 Pinned, 3 Migrating, 4 Shadowed, 5 Poisoned, 6 Vacated, 1 Mapped with
a tag; the page's size code, entry, shadow frame, written sectors, handle, the frame of a migration with its former state, and the writes
that wait for it, in their order of arrival (R264): each as the move that tries it again. -/
structure Held where
  st : Nat := 0
  ps : Nat := 0
  pte : DWord := 0
  shadow : Nat := 0
  written : List Nat := []
  handle : Nat := 0
  newFrame : Nat := 0
  prev : Nat := 0
  waits : List Move := []
  deriving DecidableEq, Repr

/-- A TLB entry (R253): the TLB that holds it (core 0 to 319; 320 + die for the shared one), `ASID`, page number and size. -/
structure TlbE where
  loc : Nat
  asid : Nat
  va : Nat
  pte : DWord
  deriving DecidableEq, Repr

/-- A line lock (R247): level 0 L2, 1 LLC. -/
structure Lock where
  cid : Nat
  lvl : Nat
  line : Nat
  deriving DecidableEq, Repr

/-! ### Queues (02, 14) -/

/-- What a CP thread holds of a mapped queue (R45, R58). -/
structure QHeld where
  mapped : Bool := false
  die : Nat := 0
  thr : Nat := 0
  widx : Nat := 0
  ridx : Nat := 0
  cid : Nat := 0
  pcls : Nat := 0
  weight : Nat := 0
  deficit : Int := 0
  wakea : Nat := 0
  wakev : Nat := 0
  qst : Nat := 0
  qfc : Nat := 0
  fidx : Nat := 0
  wp : Bool := false
  edge : Nat := 0
  since : Nat := 0
  deriving DecidableEq, Repr

/-- An armed watch (R55): the location of the 8-byte word, or the device that holds it, written since, and the edge of its last writer; and the `PTAG` of
the WAIT that watches (R50). -/
structure Watch where
  armed : Bool := false
  loc : Nat := 0
  far : Option Nat := none
  hit : Bool := false
  edge : Nat := 0
  tag : Nat := 0
  deriving DecidableEq, Repr

/-- A packet that is accepted in the handle order (R62) or has begun and not completed (R51): queue, ring index, context, type, header
word, words 6 and 7, address of the completion record, begun, the packets it begins after, the splice outcome of its record (R306),
the handles it writes (R63), and the ring index of the consumer it was accepted with (R311). -/
structure OutPkt where
  q : Nat
  idx : Nat
  cid : Nat
  kind : Nat
  w0 : DWord
  w6 : DWord
  w7 : DWord
  crec : Nat := 0
  begun : Bool := true
  pre : List (Nat × Nat) := []
  spr : Nat := 0
  srsn : Nat := 0
  writes : List Nat := []
  mate : Option Nat := none
  deriving DecidableEq, Repr

/-- An entry of the buffer handle table (R61): partition, context and handle; the last writer and the outstanding readers, as
(queue, index). -/
structure HEnt where
  dies : Nat
  cid : Nat
  handle : Nat
  writer : Option (Nat × Nat)
  readers : List (Nat × Nat)
  transient : Bool
  vacated : Bool
  deriving DecidableEq, Repr

/-- A splice cache entry (R317, R320): its context, virtual address, code objects and pair number (the key), text and map, the
kernels' register and scratchpad shares (R315), the forwarded fragments (s, d, count), the consumer's tile descriptors, its pins,
whether it may be reused, and the handles it is tagged with (R63). -/
structure SplE where
  id : Nat
  cid : Nat
  base : Nat
  codeP : Nat
  codeC : Nat
  pair : Nat
  text : List DWord
  map : List Origin
  rp : Nat
  rc : Nat
  sp : Nat
  sc : Nat
  kidP : DWord
  kidC : DWord
  entry : Nat
  frags : List (Nat × Nat × Nat)
  tilesC : List Tile
  pins : Nat
  valid : Bool
  tags : List Nat
  deriving DecidableEq, Repr

/-- A gather of a collector node (R308): the definition it is gathered for, as the grid it launches, its timer in ns, the time of
its first record, and its records: payload, edge id, block x, y, z, grid number. -/
structure Gather where
  grid : Grid
  tmr : Nat
  first : Nat
  recs : List (List Nat)
  deriving DecidableEq, Repr

/-- A collector node (R307, R308): its definition and timer, and its gathers, oldest first. -/
structure Node where
  def' : Option Grid := none
  tmr : Nat := 0
  gathers : List Gather := []
  deriving DecidableEq, Repr

/-- A record in flight from `REC` (R243): dies of the partition, node, context, payload, edge, block x, y, z. -/
structure RecIn where
  dies : Nat
  node : Nat
  cid : Nat
  body : List Nat
  deriving DecidableEq, Repr

/-! ### Truss (17) -/

/-- A chunk of a schedule slot (R370, R381). -/
structure Chunk where
  v : Bool := false
  win : Bool := false
  base : Nat := 0
  size : Nat := 0
  stride : Nat := 0
  deriving DecidableEq, Repr

/-- What a Waiting slot waits for (R380, R386, R387). -/
inductive TWait where
  | none
  | signal (s n : Nat)
  | bar (round : Nat)
  /-- The address of the local piece. -/
  | recv (va : Nat)
  /-- The handle to publish. -/
  | fin (pub : Option Nat)
  deriving DecidableEq, Repr

/-- A remote operation of a run that is not acknowledged (R385, R387): fabric tag, or number of a RoCEv2 operation to a rank; its address
for a fault record, and for a read the local address of its data. -/
structure TOp where
  eth : Bool
  k : Nat
  rank : Nat := 0
  va : Nat := 0
  dst : Option Nat := none
  len : Nat := 0
  wr : Bool := true
  deriving DecidableEq, Repr

/-- A remote operation of a run that is not sent yet (R357, R385): rank, device, fabric packet fields, and the RoCEv2 operation for a rank in
another pod; of an MCAST, the group and the member, whose entry is read when the packet is sent (R362), with the offset in its frame or the signal. -/
structure TSend where
  rank : Nat
  gdn : Nat
  kind : Nat
  opx : Nat := 0
  atype : Nat := 0
  pa : Nat
  data : List Byte := []
  va : Nat := 0
  dst : Option Nat := none
  eth : Option RoceOp := none
  mc : Option (Nat × Nat) := none
  deriving DecidableEq, Repr

/-- A schedule slot (R370, R375, R376). -/
structure TSlot where
  st : Nat := 0
  cid : Nat := 0
  eng : Nat := 0
  g : List DWord := [0, 0, 0, 0, 0, 0, 0, 0, 0, 0, 0, 0, 0, 0, 0, 0]
  chunks : Tbl Chunk := []
  sig : List Nat := [0, 0, 0, 0, 0, 0, 0, 0, 0, 0, 0, 0, 0, 0, 0, 0]
  barn : Nat := 0
  params : List DWord := []
  /-- While Loaded: the queue whose LOADSCHED runs, and the state that the slot came from (R375). -/
  loader : Option (Nat × Nat) := none
  rank : Nat := 0
  size : Nat := 0
  /-- Communicator entries: `PSLOT`, `GDN`, `PIDX`. -/
  comm : List (Nat × Nat × Nat) := []
  pc : Nat := 0
  edge : Nat := 0
  frsn : Nat := 0
  nakc : Nat := 0
  recs : Nat := 0
  pend : Option (Nat × Nat) := none
  runs : Nat := 0
  trap : DWord := 0
  words : List DWord := []
  nv : Bool := false
  node : Nat := 0
  scount : Nat := 0
  skid : DWord := 0
  armedAt : Nat := 0
  wait : TWait := .none
  waitAt : Nat := 0
  ops : List TOp := []
  /-- Operations that wait for room among the fabric requests, in program order. -/
  todo : List TSend := []
  /-- Next operation number on the queue pairs, by rank (R373), and operations received. -/
  psn : Tbl Nat := []
  rcv : Tbl Nat := []
  /-- The RUNSCHED packet that armed the run, as (queue, index). -/
  armer : Option (Nat × Nat) := none
  /-- The edge id that the last counted increment of a signal carried (R398), by signal; 16 for the last data of a RECV. -/
  sigEdge : Tbl Nat := []
  deriving DecidableEq, Repr

/-! ### Fabric (16) -/

/-- A flit (R349): its link sequence number, the packet, and which of the packet's flits it is. -/
structure Flit where
  seq : Nat
  pk : FabPkt
  i : Nat
  deriving DecidableEq, Repr

/-- A fabric port (R349 to R353): its registers; the link sequence expected next and the flits of a packet received so far; the link sequence sent
next and the replay buffer, oldest first; packets of a reserved kind that were dropped. -/
structure Port where
  en : Bool := false
  lst : Nat := 0
  peer : Nat := 0
  pinc : Nat := 0
  pport : Nat := 0
  fails : Nat := 0
  consec : Nat := 0
  fec : Nat := 0
  rpl : Nat := 0
  seq : Nat := 0
  replays : List Nat := []
  asm : List Byte := []
  tx : Nat := 0
  buf : List Flit := []
  rsvd : Nat := 0
  deriving DecidableEq, Repr

/-- Whose request it is (R358). -/
inductive Owner where
  | thread (tid : Nat)
  /-- A thread of a context whose block has left its core. -/
  | ctx (cid : Nat)
  | slot (n : Nat)
  | cp (q : Nat)
  | gov
  | walk (cid : Nat)
  deriving DecidableEq, Repr

/-- An outstanding fabric request at its source (R353, R357, R358). -/
structure OutReq where
  pk : FabPkt
  owner : Owner
  resends : Nat := 0
  sentAt : Nat := 0
  probes : Nat := 0
  /-- The virtual address of the request, and of the flag of one whose thread has gone (R260, R263). -/
  va : Nat := 0
  fva : Nat := 0
  deriving DecidableEq, Repr

/-- A packet held in custody (R354, R356): its port, the replays made, when it was sent, and whether it has been: it waits while its class has
no credit or its link is not Up. -/
structure Cust where
  pk : FabPkt
  port : Nat
  tries : Nat
  at' : Nat
  out : Bool := true
  deriving DecidableEq, Repr

/-- What a destination keeps for one source (R357). -/
structure SrcSt where
  /-- The next sequence number expected; none when nothing has come from the source. -/
  next : Option Nat := none
  buf : List FabPkt := []
  resp : List FabPkt := []
  deriving DecidableEq, Repr

/-- A RoCEv2 operation sent (R372, R373): slot and rank, the remote queue pair number, the peer's address (IPv6, MAC, Ethernet port, VLAN), and the
operation. -/
structure EthOut where
  slot : Nat
  rank : Nat
  qpn : Nat
  ip : Nat
  mac : Nat
  port : Nat
  vlan : Nat
  op : RoceOp
  deriving DecidableEq, Repr

/-- The fabric (R345 to R366). -/
structure Fab where
  port : Tbl Port := []
  route : Tbl DWord := []
  inc : Tbl Nat := []
  out : List OutReq := []
  seq : Tbl Nat := []
  src : Tbl SrcSt := []
  cust : List Cust := []
  tag : Nat := 0
  /-- Candidates that returned LINKDOWN (R360): destination, intermediate, time. -/
  down : List (Nat × Nat × Nat) := []
  /-- Packets sent: port and packet, oldest first. -/
  sent : List (Nat × FabPkt) := []
  /-- Flits sent again (R350): port and flit. -/
  again : List (Nat × Flit) := []
  /-- UDP datagrams sent (R365): address of the member, port, and payload. -/
  udp : List (Nat × Nat × List Byte) := []
  /-- RoCEv2 operations sent (R373, R385). -/
  eth : List EthOut := []
  pintlost : Nat := 0
  /-- Signal updates of CP threads that wait, oldest first (R219, R264): queue, context, address, operation, operand. -/
  sigs : List (Nat × Nat × Nat × Nat × DWord) := []
  /-- Power intents that wait for room among the fabric requests (R365): destination and payload. -/
  pints : List (Nat × List Byte) := []
  /-- The frame that has moved, while the writes that waited for it proceed (R264): old frame, new frame, bytes. -/
  redir : Option (Nat × Nat × Nat) := none
  deriving DecidableEq, Repr

/-! ### Power (15) -/

/-- An intent (R340): start, duration, rate, class, own, admitted, first start, and its device's rank, incarnation and number. -/
structure Intent where
  n : Nat
  d : Nat
  rate : Nat
  cls : Nat
  own : Bool
  adm : Bool
  n0 : Nat
  rank : Nat
  inc : Nat := 0
  gdn : Nat := 0
  deriving DecidableEq, Repr

/-- The state of one compute die that is not a core's: lock register, droop, bucket, ballast queues, charge, Scribe counter
(R337, R338, R341, R344, R397). -/
structure Die where
  lk : Bool := false
  lka : Bool := false
  brk : Nat := 0
  fmhz : Nat := 1500
  relock : Bool := false
  droop : Bool := false
  droopcnt : Nat := 0
  bucket : Int := 0
  hints : List (Nat × Nat × Nat) := []
  scrubs : List (Nat × Nat × Nat) := []
  charge : Nat := 0
  edgeCtr : Nat := 1
  above : Nat := 0
  /-- Core cycles delivered since reset, and those before the present interval. -/
  cycles : Nat := 0
  cyclesAt : Nat := 0
  deriving DecidableEq, Repr

/-- The governor and the package bucket (R327 to R340). -/
structure Pow where
  pmax : Nat := 3200
  pmin : Nat := 400
  slew : Nat := 40
  sfree : Nat := 10
  ilead : Nat := 8
  scrubmax : Nat := 300
  pset : Nat := 400
  demand : Nat := 0
  ball : Nat := 0
  bshort : Nat := 0
  tstep : Nat := 0
  tgtStep : Nat := 0
  stepAt : Nat := 0
  defer : Nat := 0
  /-- The fill rate of the interval (R331); 400 after a reset, `PSET` with no draw measured (R327, log 82). -/
  fill : Nat := 400
  /-- The thermal step as `PWRSTAT` gives it (R333). -/
  tstat : Nat := 0
  bucket : Int := 0
  k : Nat := 0
  gid : Nat := 0
  gsize : Nat := 1
  grank : Nat := 0
  stag : Nat := 4
  gbud : Nat := 400
  /-- The member table that firmware keeps (R339, R365): device number and address by rank. -/
  members : Tbl (Nat × Nat) := []
  intents : List Intent := []
  wakes : Nat := 0
  /-- Ballast drawn and tokens discarded in the interval, and scrub drawn since the tick, in 1/256 token. -/
  drawn : Nat := 0
  lost : Nat := 0
  scrubbed : Nat := 0
  /-- Tokens of the package bucket offered to ballast, in 1/256 token. -/
  offered : Int := 0
  scrubAt : Nat := 0
  deriving DecidableEq, Repr

/-! ### Scribe, debug, management (18, 19) -/

/-- A mailbox (R413): `MBUSY`, `MCOLL`, `MSTAT`, `RLEN`, the command in progress with its argument, whether M mode gave it, and the data
buffer. -/
structure Mbx where
  busy : Bool := false
  mcoll : Bool := false
  mstat : Nat := 0
  rlen : Nat := 0
  opc : Nat := 0
  arg : Nat := 0
  mmode : Bool := false
  buf : List Byte := []
  deriving DecidableEq, Repr

/-- A debug event queue (R393). -/
structure DbgQ where
  evs : List DWord := []
  dropped : Nat := 0
  deriving DecidableEq, Repr

/-- The boot stages (R407, R410, R419). -/
inductive Boot where
  | off | recovery | running | outOfService
  deriving DecidableEq, Repr

/-- Twelve stacks that the firmware accepts (R407), of part number 0 (log 58). -/
def goodStacks : List Stack := List.replicate 12 { trains := true, gib := 64, bits := 2048, rate := 10, part := 0 }

/-- The management controller (19). -/
structure Mg where
  boot : Boot := .running
  m : List (BitVec 512) := [0, 0, 0, 0, 0, 0, 0, 0]
  pkey : List Byte := []
  pkeySet : Bool := false
  firstBind : Bool := false
  svn : Nat := 0
  minSvn : Nat := 0
  boots : Nat := 0
  flash : List Byte := []
  /-- A verified image that recovery is writing to flash (R410). -/
  writing : Option (List Byte) := none
  /-- The module's recovery strap is held (R410). -/
  strap : Bool := false
  /-- What training finds at the twelve stack positions (R407). -/
  hbm : List Stack := goodStacks
  /-- What the firmware writes at boot (R407, step 3); none: what the registers hold. -/
  cfg : Option BootCfg := none
  mbx : List Mbx := [{}, {}]
  ras : List (List DWord) := []
  rasOver : Nat := 0
  /-- The sensors' readings as last sampled, and what they would read now (R418; log 113). -/
  sensors : Sensors := {}
  sense : Sensors := {}
  thermtrip : Bool := false
  /-- When the sideband fell silent (R419). -/
  silent : Option Nat := none
  fault : Bool := false
  /-- The mailbox served last. -/
  sel : Nat := 0
  dbg : List DbgQ := [{}, {}]
  deriving DecidableEq, Repr

/-- Package registers that no other part holds (R16). -/
structure Pkg where
  inc : Nat := 0
  pod : Nat := 0
  member : Nat := 0
  pmode : Nat := 4
  rstat : Nat := 0
  /-- The reset in progress (R67 to R69): rung and target; the queues whose doorbells it has latched, with the `WIDX` before them. -/
  reset : Option (Nat × Nat) := none
  latched : Tbl (Option Nat) := []
  qdbase : Nat := 0
  hstbase : Nat := 0
  mcbase : Nat := 0
  enptbase : Nat := 0
  qcmdStat : Nat := 0
  twdog : Nat := 0
  cred : Nat := 32
  ctmo : Nat := 10
  dline : Nat := 100
  rsnd : Nat := 3
  priceIdx : Nat := 0
  ingport : Nat := 18601
  pintport : Nat := 18602
  ingKsel : Nat := 0
  ingKeys : Tbl (List DWord) := []
  badfmt : Nat := 0
  noq : Nat := 0
  badtag : Nat := 0
  replay : Nat := 0
  full : Nat := 0
  /-- Frames that MACsec failed to authenticate, by Ethernet port (R368). -/
  macbad : Tbl Nat := []
  homecfg : Tbl Nat := []
  price : Tbl Word := []
  deriving DecidableEq, Repr

/-- The access in hand (the model's own, log 2): who makes it, on which index (context, mailbox), with which value. -/
structure Access where
  who : Who := .mc
  idx : Nat := 0
  val : DWord := 0
  deriving DecidableEq, Repr

/-- The whole machine. -/
structure State where
  mem : Memory
  poison : List Nat
  /-- The sectors that hold a correctable error (R335), and the integrity tags of lines whose stored tag an error has changed (R416). -/
  soft : List Nat
  tags : Tbl (Option (BitVec 32))
  thr : Tbl Thr
  gang : Tbl Gang
  blk : Tbl Blk
  grid : Tbl Grid
  core : Tbl Core
  ccl : Tbl Ccl
  ctx : Tbl Ctx
  held : Tbl Held
  /-- Replayable faults that wait for RESOLVE. -/
  faults : List FStall
  token : Nat
  tlb : List TlbE
  locks : List Lock
  q : Tbl QHeld
  /-- The arbiters' cursors (R56): by 16 × partition + class, the queue plus 1. -/
  cursor : Tbl Nat
  watch : Tbl Watch
  pkts : List OutPkt
  handles : List HEnt
  splices : List SplE
  node : Tbl Node
  recs : List RecIn
  slot : Tbl TSlot
  die : Tbl Die
  edges : Tbl Edge
  edgeOrder : List Nat
  pkg : Pkg
  pow : Pow
  fab : Fab
  mg : Mg
  hres : Tbl (Option (Nat × Nat))
  time : Nat
  gridCtr : Nat
  blkCtr : Nat
  /-- The model's own (log 2, log 4). -/
  turn : Nat
  eturn : Nat
  acc : Access
  bus : DWord
  fresh : Nat
  agenda : List Move
  deriving DecidableEq, Repr

/-- Why the machine stops. -/
inductive Fault where
  /-- A core instruction is executed though the core whose turn it is has no issue group in progress.  Raised by every meaning
  of a core word; the machine's own step never raises it, since it executes a word only for a group (R106).  Safe: the spec
  gives such an execution no meaning. -/
  | noGroup
  /-- A Truss word is executed though the engine whose turn it is runs no schedule.  Raised by every meaning of a Truss word;
  the machine's own step never raises it (R369).  Safe, as above. -/
  | noSchedule
  deriving DecidableEq, Repr

/-- Why an instruction has no meaning. -/
inductive Refusal where
  /-- The instruction's meaning is not written.  Raised by exec's arm for it.  Safe: nothing is proved of it. -/
  | notModelled (mnemonic : String)
  deriving DecidableEq, Repr

/-- The machine right after a whole-device reset (INVENTORY.md, State; log 3, log 5). -/
def State.reset : State where
  mem := []
  poison := []
  soft := []
  tags := []
  thr := []
  gang := []
  blk := []
  grid := []
  core := []
  ccl := []
  ctx := []
  held := []
  faults := []
  token := 0
  tlb := []
  locks := []
  q := []
  cursor := []
  watch := []
  pkts := []
  handles := []
  splices := []
  node := []
  recs := []
  slot := []
  die := []
  edges := []
  edgeOrder := []
  pkg := {}
  pow := {}
  fab := {}
  mg := { boot := .off }
  hres := []
  time := 0
  gridCtr := 0
  blkCtr := 0
  turn := 0
  eturn := 0
  acc := {}
  bus := 0
  fresh := 0
  agenda := []

end Sys2Proof.Machine
end

