-- ==== Sys2Proof/Machine/Base.lean ====
section
/-!
DEFINITION. Reading and writing the parts of the state: bytes of memory, threads and their registers, gangs, blocks, grids,
cores, contexts, the RAS log, and the arithmetic of PC values (R78) and of thread names (R96).
-/
namespace Sys2Proof.Machine

/-! ### Bytes and words (R10: little-endian) -/

/-- The number whose little-endian bytes these are. -/
def leNat : List Byte → Nat
  | [] => 0
  | b :: bs => b.toNat + 256 * leNat bs

/-- The `n` low bytes of a number, lowest first. -/
def natLe : Nat → Nat → List Byte
  | 0, _ => []
  | n + 1, x => BitVec.ofNat 8 x :: natLe n (x / 256)

/-- Bits `hi` to `lo` of a number. -/
def bitsOf (x lo n : Nat) : Nat := x / 2 ^ lo % 2 ^ n

/-- Sign extension of the low `n` bits. -/
def sextNat (n x : Nat) : Int :=
  let y := x % 2 ^ n
  if 2 * y < 2 ^ n then (y : Int) else (y : Int) - (2 : Int) ^ n

/-- Bit `i` of a number. -/
def bitOf (x i : Nat) : Bool := x.testBit i

/-- A number modulo `2^n`, from an integer. -/
def wrapN (n : Nat) (x : Int) : Nat := (x % ((2 : Int) ^ n)).toNat

/-- Element `i` of a list replaced; a shorter list is filled with the default first. -/
def setAt {α : Type} (d : α) : List α → Nat → α → List α
  | [], 0, x => [x]
  | [], i + 1, x => d :: setAt d [] i x
  | _ :: l, 0, x => x :: l
  | a :: l, i + 1, x => a :: setAt d l i x

/-- The numbers below `n`. -/
def upto (n : Nat) : List Nat := List.range n

/-! ### Memory -/

/-- Size of a scratchpad's share of the locations. -/
def spadLoc (core off : Nat) : Nat := 2 ^ 52 + core * 2 ^ 30 + off

/-- One byte. -/
def State.byte (s : State) (loc : Nat) : Byte := Tbl.get Memory.blank s.mem loc

/-- `n` bytes from a location. -/
def State.bytes (s : State) (loc : Nat) : Nat → List Byte
  | 0 => []
  | n + 1 => s.byte loc :: s.bytes (loc + 1) n

/-- `n` bytes read as a little-endian number. -/
def State.rd (s : State) (loc n : Nat) : Nat := leNat (s.bytes loc n)

/-- Bytes written at a location. -/
def Memory.put : Memory → Nat → List Byte → Memory
  | m, _, [] => m
  | m, loc, b :: bs => Memory.put (Tbl.set Memory.blank m loc b) (loc + 1) bs

/-- A location range lies in the held-state table (R255). -/
def State.inHst (s : State) (loc n : Nat) : Bool :=
  decide (loc < s.pkg.hstbase + 2 ^ 24) && decide (s.pkg.hstbase < loc + n)

/-- An entry of the RAS log (R417): kind, unit, unit number and location. -/
def State.ras (s : State) (kind unit num loc : Nat) : State :=
  let e : List DWord := [.ofNat 64 s.time, .ofNat 64 (kind + 2 ^ 8 * unit + 2 ^ 16 * num + 2 ^ 32 * loc),
    .ofNat 64 (loc / 2 ^ 32), 0]
  let l := s.mg.ras ++ [e]
  { s with mg := { s.mg with
      ras := if l.length ≤ 4096 then l else l.drop 1
      rasOver := if l.length ≤ 4096 then s.mg.rasOver else min (s.mg.rasOver + 1) (2 ^ 32 - 1) } }

/-- A writer's mark: its edge id, and its local id (R267) plus 1; 0 is a hart, a CP or another device, whose edge is a root. -/
def stampOf (edge lid : Nat) : Nat := edge % 2 ^ 48 + 2 ^ 48 * (lid + 1)

/-- The watches on locations of this package that a write hits (R55), with the writer's mark. -/
def hitWatches (t : Tbl Watch) (loc n edge : Nat) : Tbl Watch :=
  t.map fun (k, w) => (k, if w.armed && w.far.isNone && w.loc < loc + n && loc < w.loc + 8 then { w with hit := true, edge } else w)

/-- Reservations of other accesses to the locations are lost (R210). -/
def dropRes (t : Tbl (Option (Nat × Nat))) (loc n : Nat) : Tbl (Option (Nat × Nat)) :=
  t.filter fun (_, r) => match r with
    | some (a, w) => !(decide (a < loc + n) && decide (loc < a + w))
    | none => true

/-- A write of bytes to locations by any agent: dropped and logged when it meets the held-state table (R255); otherwise
performed, with the watches and reservations it meets. -/
def State.wr (s : State) (loc : Nat) (bs : List Byte) (stamp : Nat := 0) : State :=
  if s.inHst loc bs.length && decide (0 < bs.length) then s.ras 5 5 0 loc
  else { s with
    mem := Memory.put s.mem loc bs
    watch := hitWatches s.watch loc bs.length stamp
    hres := dropRes s.hres loc bs.length }

/-- A write of a number of `n` bytes. -/
def State.wrN (s : State) (loc n x : Nat) (stamp : Nat := 0) : State := s.wr loc (natLe n x) stamp

/-- A sector of the locations is marked poisoned (R256). -/
def State.poisoned (s : State) (loc n : Nat) : Bool :=
  s.poison.any fun k => decide (32 * k < loc + n) && decide (loc < 32 * k + 32)

/-! ### Tables -/

/-- Thread `tid` = 1024 × block + slot. -/
def State.th (s : State) (tid : Nat) : Thr := Tbl.get {} s.thr tid
/-- Replaces a thread. -/
def State.setTh (s : State) (tid : Nat) (t : Thr) : State := { s with thr := Tbl.set {} s.thr tid t }
/-- Changes a thread. -/
def State.modTh (s : State) (tid : Nat) (f : Thr → Thr) : State := s.setTh tid (f (s.th tid))
/-- Gang `key` = 32 × block + gang. -/
def State.gg (s : State) (key : Nat) : Gang := Tbl.get {} s.gang key
/-- Replaces a gang. -/
def State.setGg (s : State) (key : Nat) (g : Gang) : State := { s with gang := Tbl.set {} s.gang key g }
/-- Changes a gang. -/
def State.modGg (s : State) (key : Nat) (f : Gang → Gang) : State := s.setGg key (f (s.gg key))
/-- A block. -/
def State.bk (s : State) (bid : Nat) : Blk := Tbl.get {} s.blk bid
/-- Replaces a block. -/
def State.setBk (s : State) (bid : Nat) (b : Blk) : State := { s with blk := Tbl.set {} s.blk bid b }
/-- A grid. -/
def State.gr (s : State) (gid : Nat) : Grid := Tbl.get {} s.grid gid
/-- Replaces a grid. -/
def State.setGr (s : State) (gid : Nat) (g : Grid) : State := { s with grid := Tbl.set {} s.grid gid g }
/-- A core. -/
def State.co (s : State) (c : Nat) : Core := Tbl.get {} s.core c
/-- Replaces a core. -/
def State.setCo (s : State) (c : Nat) (x : Core) : State := { s with core := Tbl.set {} s.core c x }
/-- Changes a core. -/
def State.modCo (s : State) (c : Nat) (f : Core → Core) : State := s.setCo c (f (s.co c))
/-- A channel of a core (R280). -/
def Core.chan (c : Core) (ch : Nat) : Chan := c.chans.getD ch {}
/-- A change of one of a core's four channels. -/
def Core.modChan (c : Core) (ch : Nat) (f : Chan → Chan) : Core :=
  if ch < 4 then { c with chans := setAt {} c.chans ch (f (c.chan ch)) } else c
/-- A core's state at reset. -/
def Core.fresh : Core := {}
/-- A core cluster. -/
def State.cc (s : State) (c : Nat) : Ccl := Tbl.get {} s.ccl c
/-- Replaces a core cluster. -/
def State.setCc (s : State) (c : Nat) (x : Ccl) : State := { s with ccl := Tbl.set {} s.ccl c x }
/-- A context. -/
def State.cx (s : State) (cid : Nat) : Ctx := Tbl.get {} s.ctx cid
/-- Replaces a context. -/
def State.setCx (s : State) (cid : Nat) (c : Ctx) : State := { s with ctx := Tbl.set {} s.ctx cid c }
/-- Changes a context. -/
def State.modCx (s : State) (cid : Nat) (f : Ctx → Ctx) : State := s.setCx cid (f (s.cx cid))
/-- A die. -/
def State.di (s : State) (d : Nat) : Die := Tbl.get {} s.die d
/-- Replaces a die. -/
def State.setDi (s : State) (d : Nat) (x : Die) : State := { s with die := Tbl.set {} s.die d x }
/-- Changes a die. -/
def State.modDi (s : State) (d : Nat) (f : Die → Die) : State := s.setDi d (f (s.di d))
/-- A schedule slot. -/
def State.sl (s : State) (n : Nat) : TSlot := Tbl.get {} s.slot n
/-- Replaces a schedule slot. -/
def State.setSl (s : State) (n : Nat) (x : TSlot) : State := { s with slot := Tbl.set {} s.slot n x }
/-- Changes a schedule slot. -/
def State.modSl (s : State) (n : Nat) (f : TSlot → TSlot) : State := s.setSl n (f (s.sl n))
/-- A fabric port. -/
def State.pt (s : State) (p : Nat) : Port := Tbl.get {} s.fab.port p
/-- Replaces a fabric port. -/
def State.setPt (s : State) (p : Nat) (x : Port) : State := { s with fab := { s.fab with port := Tbl.set {} s.fab.port p x } }
/-- A mailbox. -/
def State.mbx (s : State) (n : Nat) : Mbx := s.mg.mbx.getD n {}
/-- Replaces a mailbox. -/
def State.setMbx (s : State) (n : Nat) (x : Mbx) : State := { s with mg := { s.mg with mbx := setAt {} s.mg.mbx n x } }

/-! ### Names (R96, R198) -/

/-- The block of a thread. -/
def tidBlk (tid : Nat) : Nat := tid / 1024
/-- The slot of a thread in its block. -/
def tidSlot (tid : Nat) : Nat := tid % 1024
/-- The lane of a thread. -/
def tidLane (tid : Nat) : Nat := tid % 32
/-- The gang of a thread within its block. -/
def tidGang (tid : Nat) : Nat := tid % 1024 / 32
/-- The key of a thread's gang. -/
def tidGk (tid : Nat) : Nat := tid / 32
/-- The thread on the other lane of a thread's register words (R118). -/
def tidPair (tid : Nat) : Nat := if tid % 2 = 0 then tid + 1 else tid - 1
/-- The thread on a lane of a gang. -/
def gkTid (gk lane : Nat) : Nat := gk * 32 + lane

/-- The block of a thread. -/
def State.blkOf (s : State) (tid : Nat) : Blk := s.bk (tidBlk tid)
/-- The grid of a thread. -/
def State.gridOf (s : State) (tid : Nat) : Grid := s.gr (s.blkOf tid).gid
/-- The core of a thread. -/
def State.coreOf (s : State) (tid : Nat) : Nat := (s.blkOf tid).core
/-- The context of a thread. -/
def State.cidOf (s : State) (tid : Nat) : Nat := (s.gridOf tid).cid
/-- The die of a core: 80 cores each (R198). -/
def coreDie (c : Nat) : Nat := c / 80
/-- The core cluster of a core: eight cores each (R198). -/
def coreCcl (c : Nat) : Nat := c / 8

/-- The threads of a block that lie in the slots of its shape (R96). -/
def Grid.slots (g : Grid) : Nat := 4 * ((g.bdx * g.bdy * g.bdz + 3) / 4)
/-- The gangs of a block. -/
def Grid.gangs (g : Grid) : Nat := (g.slots + 31) / 32
/-- The threads of a block that are no helpers. -/
def Grid.threads (g : Grid) : Nat := g.bdx * g.bdy * g.bdz

/-- A lane of a gang holds a thread slot (R96). -/
def State.holdsSlot (s : State) (tid : Nat) : Bool := tidSlot tid < (s.gridOf tid).slots

/-- A lane of a gang holds a thread that was launched and has not exited (R187). -/
def State.liveTid (s : State) (tid : Nat) : Bool :=
  s.holdsSlot tid && (s.th tid).st != .exited && (s.th tid).st != .never

/-! ### PC values (R78) -/

/-- The address of a PC value. -/
def pcAddr (pc : DWord) : Nat := pc.toNat % 2 ^ 56 / 8 * 8
/-- `SLOT` of a PC value. -/
def pcSlot (pc : DWord) : Nat := pc.toNat / 2 ^ 56 % 32
/-- The PC value of an address and `SLOT`. -/
def mkPc (addr slot : Nat) : DWord := .ofNat 64 (addr % 2 ^ 56 + 2 ^ 56 * slot)
/-- The address of the header of the clause of a PC value. -/
def pcHeader (pc : DWord) : Nat := (pcAddr pc + 2 ^ 56 - 8 * pcSlot pc) % 2 ^ 56

/-- The fields of a clause header (R74). -/
def hdrCls (h : DWord) : Nat := bitsOf h.toNat 56 4
/-- Instruction words in the clause. -/
def hdrLen (h : DWord) : Nat := bitsOf h.toNat 52 4 + 1
/-- Bit k: the clause waits for flag k. -/
def hdrWait (h : DWord) (k : Nat) : Bool := h.toNat.testBit (40 + k)
/-- `SAV`. -/
def hdrSav (h : DWord) : Bool := h.toNat.testBit 39
/-- `SA`. -/
def hdrSa (h : DWord) : Nat := bitsOf h.toNat 35 4
/-- `SBV`. -/
def hdrSbv (h : DWord) : Bool := h.toNat.testBit 34
/-- `SB`. -/
def hdrSb (h : DWord) : Nat := bitsOf h.toNat 30 4
/-- `BODY`. -/
def hdrBody (h : DWord) : Bool := h.toNat.testBit 29
/-- `HEAD`. -/
def hdrHead (h : DWord) : Bool := h.toNat.testBit 28
/-- `YLD`. -/
def hdrYld (h : DWord) : Bool := h.toNat.testBit 27
/-- `BR`. -/
def hdrBr (h : DWord) : Bool := h.toNat.testBit 26

/-- Checks 1 and 2 of R75: the header word is that of a clause. -/
def hdrOk (h : DWord) : Bool :=
  bitsOf h.toNat 60 4 == 10 && bitsOf h.toNat 0 26 == 0 && decide (hdrCls h ≤ 4) &&
    (if hdrSav h then decide (hdrSa h < 12) else hdrSa h == 0) &&
    (if hdrSbv h then decide (hdrSb h < 12) else hdrSb h == 0) && (!hdrHead h || hdrBody h)

/-- The flag that `FS` selects, when its valid bit is set (R79). -/
def hdrFlag (h : DWord) (fs : Bool) : Option Nat :=
  if fs then (if hdrSbv h then some (hdrSb h) else none) else if hdrSav h then some (hdrSa h) else none

/-! ### Registers of a thread -/

/-- Register vn. -/
def Thr.reg (t : Thr) (n : Nat) : Word := t.regs.getD n 0
/-- Register vn written. -/
def Thr.setReg (t : Thr) (n : Nat) (x : Word) : Thr := { t with regs := setAt 0 t.regs n x }
/-- Flag counter fk. -/
def Thr.flag (t : Thr) (k : Nat) : Nat := t.flags.getD k 0
/-- Flag counter fk written. -/
def Thr.setFlag (t : Thr) (k : Nat) (x : Nat) : Thr := { t with flags := setAt 0 t.flags k x }
/-- Latch lk. -/
def Thr.latch (t : Thr) (k : Nat) : Latch := t.latches.getD k {}
/-- Latch lk written. -/
def Thr.setLatch (t : Thr) (k : Nat) (x : Latch) : Thr := { t with latches := setAt {} t.latches k x }
/-- Every flag counter is zero. -/
def Thr.flagsZero (t : Thr) : Bool := t.flags.all (· == 0)

/-- The state code of R102 of a thread that is not in Flag-wait. -/
def Thr.code (t : Thr) : Nat :=
  match t.st with
  | .blocked => 2
  | .stalled => 3
  | .entering => 4
  | .halted => 5
  | _ => if t.inh then 4 else 0

/-- A free 64-bit value, never the same place twice (log 4). -/
def State.free (s : State) : DWord × State := (Config.freeValue s.fresh, { s with fresh := s.fresh + 1 })

end Sys2Proof.Machine
end

