-- ==== Sys2Proof/Machine/Translate.lean ====
section
/-!
DEFINITION. Translation of virtual addresses: page-table walks (R249 to R252), TLBs (R253, R254), held-state records (R255), the
places an address may name, and the fault queue (R259, R260).
-/
namespace Sys2Proof.Machine

/-- The first physical address of device register space (R250). -/
def hbmTop : Nat := 768 * 2 ^ 30

/-- The first address of the splice caches, which belong to no page (R317). -/
def spliceVa : Nat := 0x00FFFF0000000000

/-! ### Page entries (R251) -/

/-- `V`. -/
def pteV (e : DWord) : Bool := e.toNat.testBit 0
/-- `KIND`. -/
def pteKind (e : DWord) : Nat := bitsOf e.toNat 1 2
/-- `PS`. -/
def ptePs (e : DWord) : Nat := bitsOf e.toNat 3 2
/-- `R`. -/
def pteR (e : DWord) : Bool := e.toNat.testBit 5
/-- `W`. -/
def pteW (e : DWord) : Bool := e.toNat.testBit 6
/-- `X`, of a local page. -/
def pteX (e : DWord) : Bool := pteKind e == 1 && e.toNat.testBit 7
/-- `SO`, of a local page. -/
def pteSo (e : DWord) : Bool := pteKind e == 1 && e.toNat.testBit 8
/-- `NEXT` or `FRAME`, as an address. -/
def pteFrame (e : DWord) : Nat := bitsOf e.toNat 16 36 * 2 ^ 16
/-- `GDN`. -/
def pteGdn (e : DWord) : Nat := bitsOf e.toNat 8 20
/-- `RFRAME`, as an address at the target. -/
def pteRframe (e : DWord) : Nat := bitsOf e.toNat 28 36 * 2 ^ 16
/-- `GROUP`. -/
def pteGroup (e : DWord) : Nat := bitsOf e.toNat 8 12

/-- Bytes of a page, by its size code. -/
def psBytes (ps : Nat) : Nat := if ps = 2 then 2 ^ 29 else if ps = 1 then 2 ^ 21 else 2 ^ 16

/-- Why a translation fails (R252, R258). -/
inductive TErr where
  | absent
  | malformed
  deriving DecidableEq, Repr

/-- A page entry that a walk ends at: one that breaks no rule of R252. -/
def leafOk (e : DWord) : Bool :=
  let n := psBytes (ptePs e)
  let f := pteFrame e
  match pteKind e with
  | 1 => f % n == 0 && !(decide (f < hbmTop) && decide (hbmTop < f + n))
  | 2 | 3 => ptePs e == 0
  | _ => false

/-- The walk of R252 from a level-1 table. -/
def State.walk (s : State) (root va : Nat) : Except TErr DWord :=
  let e1 : DWord := .ofNat 64 (s.rd (root * 2 ^ 16 + 8 * bitsOf va 42 14) 8)
  if !pteV e1 then .error .absent
  else if pteKind e1 ≠ 0 then .error .malformed
  else
    let e2 : DWord := .ofNat 64 (s.rd (pteFrame e1 + 8 * bitsOf va 29 13) 8)
    if !pteV e2 then .error .absent
    else if pteKind e2 ≠ 0 then
      if ptePs e2 = 2 ∧ leafOk e2 then .ok e2 else .error .malformed
    else
      let e3 : DWord := .ofNat 64 (s.rd (pteFrame e2 + 8 * bitsOf va 16 13) 8)
      if !pteV e3 then .error .absent
      else if pteKind e3 = 0 ∨ ptePs e3 ≥ 2 then .error .malformed
      else if leafOk e3 then .ok e3 else .error .malformed

/-- The table entry at which a walk ends, well formed or not: its location, and whether it is one of level 3. -/
def State.walkEnd (s : State) (root va : Nat) : Nat × Bool :=
  let a1 := root * 2 ^ 16 + 8 * bitsOf va 42 14
  let e1 : DWord := .ofNat 64 (s.rd a1 8)
  let a2 := pteFrame e1 + 8 * bitsOf va 29 13
  let e2 : DWord := .ofNat 64 (s.rd a2 8)
  if !pteV e1 || pteKind e1 != 0 then (a1, false)
  else if !pteV e2 || pteKind e2 != 0 then (a2, false)
  else (pteFrame e2 + 8 * bitsOf va 16 13, true)

/-! ### Held-state records (R255) -/

/-- The key of a page of an address space: its `ASID` and its first 64 KiB. -/
def heldKey (asid page : Nat) : Nat := asid * 2 ^ 40 + page / 2 ^ 16

/-- The record that holds an address, with the first address of its page. -/
def State.heldOf (s : State) (asid va : Nat) : Option (Nat × Held) :=
  [2, 1, 0].findSome? fun ps =>
    let base := va / psBytes ps * psBytes ps
    let h := Tbl.get {} s.held (heldKey asid base)
    if h.st ≠ 0 ∧ h.ps = ps then some (base, h) else none

/-- The page of an address is Migrating: writes to it wait (R264). -/
def State.migrating (s : State) (asid va : Nat) : Bool := (s.heldOf asid va).any fun x => x.2.st == 3

/-- The Migrating page whose frame holds a location, for a write that arrives through a fabric page of this device (R264). -/
def State.frameMigrating (s : State) (loc : Nat) : Option Nat :=
  (s.held.find? fun x => x.2.st == 3 && pteKind x.2.pte == 1 && decide (pteFrame x.2.pte ≤ loc) &&
    decide (loc < pteFrame x.2.pte + psBytes x.2.ps)).map (·.1)

/-- A record replaced; a record with no state is none. -/
def State.setHeld (s : State) (asid page : Nat) (h : Held) : State :=
  { s with held := Tbl.set {} s.held (heldKey asid page) h }

/-! ### Marks and tags (R256, R416) -/

/-- Sectors of a local frame. -/
def inFrame (frame n k : Nat) : Bool := decide (frame ≤ 32 * k) && decide (32 * k < frame + n)

/-- A new record finds a free place in the held-state table (R255). -/
def State.hstRoom (s : State) : Bool := decide (s.held.length < 262144)

/-- The valid entries of a table of `n` entries. -/
def State.validEntries (s : State) (base n : Nat) : List (Nat × DWord) :=
  (upto n).filterMap fun i =>
    let e : DWord := .ofNat 64 (s.rd (base + 8 * i) 8)
    if pteV e then some (i, e) else none

/-- The well-formed pages reached from a level-1 table: first address and entry. -/
def State.leaves (s : State) (root : Nat) : List (Nat × DWord) :=
  (s.validEntries (root * 2 ^ 16) 16384).flatMap fun (i1, e1) =>
    if pteKind e1 ≠ 0 then []
    else (s.validEntries (pteFrame e1) 8192).flatMap fun (i2, e2) =>
      let va2 := i1 * 2 ^ 42 + i2 * 2 ^ 29
      if pteKind e2 ≠ 0 then (if ptePs e2 = 2 ∧ leafOk e2 then [(va2, e2)] else [])
      else (s.validEntries (pteFrame e2) 8192).filterMap fun (i3, e3) =>
        if pteKind e3 = 0 ∨ 2 ≤ ptePs e3 ∨ !leafOk e3 then none
        else some ((va2 + i3 * 2 ^ 16) / psBytes (ptePs e3) * psBytes (ptePs e3), e3)

/-- A sector is marked: every Mapped page that holds it becomes Poisoned, where the held-state table has room (R256). -/
def State.markSector (s : State) (k : Nat) : State :=
  let s := if s.poison.contains k then s else { s with poison := s.poison ++ [k] }
  let s := { s with held := s.held.map fun (x : Nat × Held) =>
    (x.1, if x.2.st = 1 ∧ pteKind x.2.pte = 1 ∧ inFrame (pteFrame x.2.pte) (psBytes x.2.ps) k then { x.2 with st := 5 } else x.2) }
  (s.ctx.filter fun (x : Nat × Ctx) => x.2.v).foldl (fun s (_, c) =>
    ((s.leaves c.root).eraseDups.filter fun x => pteKind x.2 == 1 && inFrame (pteFrame x.2) (psBytes (ptePs x.2)) k).foldl (fun s x =>
      if (s.heldOf c.asid x.1).isSome then s
      else if s.hstRoom then s.setHeld c.asid x.1 { st := 5, ps := ptePs x.2, pte := x.2 }
      else s.ras 4 3 0 (32 * k)) s) s

/-- The CRC-32C of a run of bytes (R416; its polynomial from outside the spec, log 112). -/
def crc32c (bs : List Byte) : BitVec 32 :=
  ~~~ bs.foldl (fun c b =>
    (upto 8).foldl (fun c _ => if c.getLsbD 0 then (c >>> 1) ^^^ 0x82F63B78#32 else c >>> 1) (c ^^^ b.setWidth 32)) (.allOnes 32)

/-- The stored tag of a line does not match its bytes (R416). -/
def State.tagBad (s : State) (line : Nat) : Bool :=
  (Tbl.get none s.tags line).any fun t => t != crc32c (s.bytes (128 * line) 128)

/-- A mismatch is found: the four sectors of the line are marked, and it is logged (R416). -/
def State.tagFound (s : State) (line : Nat) : State :=
  let s : State := { s with tags := Tbl.set none s.tags line none }
  ((((s.markSector (4 * line)).markSector (4 * line + 1)).markSector (4 * line + 2)).markSector (4 * line + 3)).ras 3 1 0 (128 * line)

/-- The line of a location is read from the LLC or HBM4, or leaves the package: its tag is checked (R416). -/
def State.fill (s : State) (loc : Nat) : State :=
  if s.tagBad (loc / 128) then s.tagFound (loc / 128) else s

/-- The lines of a run of bytes. -/
def State.fills (s : State) (loc n : Nat) : State := (upto ((loc % 128 + n + 127) / 128)).foldl (fun s i => s.fill (loc + 128 * i)) s

/-! ### TLBs (R253) -/

/-- A TLB entry serves an address. -/
def TlbE.hits (e : TlbE) (loc asid va : Nat) : Bool :=
  e.loc == loc && e.asid == asid && va / psBytes (ptePs e.pte) * psBytes (ptePs e.pte) == e.va

/-- The entry of a TLB for an address. -/
def State.tlbFind (s : State) (loc asid va : Nat) : Option TlbE := s.tlb.find? (·.hits loc asid va)

/-- The places that a translation may take in a TLB (R253): 64 in an L1 TLB, the 16 ways of its set in a shared one. -/
def tlbWays (loc : Nat) : Nat := if loc < 320 then 64 else 16

/-- The set of a TLB that holds a translation: one in an L1 TLB, one of 512 in a shared one, of 8,192 entries (R253). -/
def TlbE.set (e : TlbE) : Nat := if e.loc < 320 then 0 else Config.tlbSet e.asid e.va % 512

/-- An entry enters a TLB; a full set loses the entry that the implementation picks (log 7). -/
def State.tlbPut (s : State) (e : TlbE) : State :=
  let mine := s.tlb.filter fun x => x.loc == e.loc && x.set == e.set
  if mine.length < tlbWays e.loc then { s with tlb := s.tlb ++ [e] }
  else
    let out := mine.getD (Config.tlbVictim s.fresh % tlbWays e.loc) e
    { s with tlb := s.tlb.erase out ++ [e], fresh := s.fresh + 1 }

/-- Removes translations: of one address space and page, of one address space, or all (R206). -/
def State.tlbDrop (s : State) (p : TlbE → Bool) : State := { s with tlb := s.tlb.filter fun e => !p e }

/-- Removes the translations of the page that holds an address, of any size (R206). -/
def State.tlbDropPage (s : State) (asid va : Nat) : State :=
  s.tlbDrop fun e => e.asid == asid && va / psBytes (ptePs e.pte) * psBytes (ptePs e.pte) == e.va

/-- A translation through the L1 TLB of a core (`l1`), the shared TLB of a die and the walkers, for a page without record. -/
def State.tlbWalk (s : State) (asid root : Nat) (l1 : Option Nat) (die va : Nat) : Except TErr DWord × State :=
  match l1.bind (fun c => s.tlbFind c asid va) with
  | some e => (.ok e.pte, s)
  | none =>
    let fill (s : State) (pte : DWord) : State :=
      match l1 with
      | some c => s.tlbPut { loc := c, asid, va := va / psBytes (ptePs pte) * psBytes (ptePs pte), pte }
      | none => s
    match s.tlbFind (320 + die) asid va with
    | some e => (.ok e.pte, fill s e.pte)
    | none =>
      match s.walk root va with
      | .error e => (.error e, s)
      | .ok pte =>
        (.ok pte, fill (s.tlbPut { loc := 320 + die, asid, va := va / psBytes (ptePs pte) * psBytes (ptePs pte), pte }) pte)

/-- What an address translates to: the entry in force, and the page's state (0 for an ordinary page). -/
structure Xlat where
  pte : DWord
  held : Held
  page : Nat
  deriving DecidableEq, Repr

/-- The global device number of this device (R345). -/
def State.gdn (s : State) : Nat := s.pkg.pod * 2 ^ 10 + s.pkg.member

/-- Where an address lies. -/
inductive Place where
  /-- A location of this package. -/
  | loc (n : Nat)
  /-- A device register or PCIe address of this package. -/
  | dev (pa : Nat)
  /-- A physical address at another device. -/
  | fab (gdn pa : Nat)
  /-- An offset in the frames of a multicast group. -/
  | mc (group off : Nat)
  deriving DecidableEq, Repr

/-- The location that a write names, while writes that waited for a frame switch proceed to the new frame (R264). -/
def State.redirected (s : State) (loc : Nat) : Nat :=
  match s.fab.redir with
  | some (old, new, n) => if old ≤ loc ∧ loc < old + n then loc - old + new else loc
  | none => loc

/-- The place of an address under its translation (R251, R207). -/
def Xlat.place (x : Xlat) (s : State) (va : Nat) : Place :=
  let off := va % psBytes (ptePs x.pte)
  match pteKind x.pte with
  | 2 => if pteGdn x.pte = s.gdn ∧ pteRframe x.pte + off < hbmTop then .loc (s.redirected (pteRframe x.pte + off))
         else .fab (pteGdn x.pte) (pteRframe x.pte + off)
  | 3 => .mc (pteGroup x.pte) off
  | _ => if pteFrame x.pte + off < hbmTop then .loc (pteFrame x.pte + off) else .dev (pteFrame x.pte + off)

/-- An access reaches its place, whose line it fills (R416). -/
def State.fillAt (s : State) (p : Place) : State :=
  match p with
  | .loc l => s.fill l
  | _ => s

/-- The translation of an address of a context (R254, R255): from its record when the page has one. -/
def State.xlat (s : State) (cid : Nat) (l1 : Option Nat) (die va : Nat) : Except TErr Xlat × State :=
  let c := s.cx cid
  match s.heldOf c.asid va with
  | some (page, h) => (.ok { pte := h.pte, held := h, page }, s)
  | none =>
    match s.tlbWalk c.asid c.root l1 die va with
    | (.error e, s) => (.error e, s)
    | (.ok pte, s) => (.ok { pte, held := {}, page := va / psBytes (ptePs pte) * psBytes (ptePs pte) }, s)

/-- The record that a write through a translation waits for (R264): of its page, when it is Migrating, or of the page whose frame a fabric page of
this device names. -/
def Xlat.waitsOn (x : Xlat) (s : State) (asid va : Nat) : Option Nat :=
  if x.held.st = 3 then some (heldKey asid x.page)
  else if pteKind x.pte = 2 then (match x.place s va with | .loc l => s.frameMigrating l | _ => none)
  else none

/-- A move that tries again what waits, and so waits but once; the others are writes, each of which is performed. -/
def Move.again : Move → Bool
  | .put .. | .post .. | .deliver .. => false
  | _ => true

/-- A write waits for a Migrating page, behind the writes that came before it (R264): the move that tries it again. -/
def State.lateAt (s : State) (key : Nat) (m : Move) : State :=
  let h := Tbl.get {} s.held key
  if h.st ≠ 3 ∨ (m.again ∧ h.waits.contains m) then s else { s with held := Tbl.set {} s.held key { h with waits := h.waits ++ [m] } }

/-- A write waits for the Migrating page of an address of a context. -/
def State.late (s : State) (cid va : Nat) (m : Move) : State :=
  match s.heldOf (s.cx cid).asid va with
  | some (base, _) => s.lateAt (heldKey (s.cx cid).asid base) m
  | none => s

/-- The lead die of a die mask: its lowest (R17). -/
def leadDie (dies : Nat) : Nat :=
  if dies % 2 = 1 then 0 else if dies / 2 % 2 = 1 then 1 else if dies / 4 % 2 = 1 then 2 else 3

/-- A die belongs to a mask. -/
def inMask (dies d : Nat) : Bool := dies.testBit d

/-- The record that a write of the hardware at an address of a context waits for (R264). -/
def State.hwWaits (s : State) (cid va : Nat) : Option Nat :=
  match (s.xlat cid none (leadDie (s.cx cid).dies) va).1 with
  | .ok x => x.waitsOn s (s.cx cid).asid va
  | .error _ => none

/-- A location through which the hardware reads or writes a structure of a context: translated, local and permitted. -/
def State.hwLoc (s : State) (cid va : Nat) (wr : Bool) : Option Nat × State :=
  if spliceVa ≤ va then (none, s)
  else match s.xlat cid none (leadDie (s.cx cid).dies) va with
  | (.ok x, s') =>
    match x.place s va with
    | .loc n => if x.held.st ≠ 6 ∧ (if wr then pteW x.pte else pteR x.pte) then (some n, s'.fill n) else (none, s')
    | _ => (none, s')
  | (.error _, s') => (none, s')

/-- The byte at an address for the hardware: what a write of its own that waits will put there (R264), or the byte at the location. -/
def State.hwByte (s : State) (cid va loc : Nat) : Byte :=
  let ms := (match s.hwWaits cid va with | some key => (Tbl.get {} s.held key).waits | none => []) ++ s.agenda
  ms.foldl (fun b m => match m with
    | .put c a bs _ => if c = cid ∧ a ≤ va then bs.getD (va - a) b else b
    | _ => b) (s.byte loc)

/-- Reads `n` bytes of a context's memory, each through its own page; none when one fails.  A marked sector is read as memory holds it (log 121). -/
def State.hwRead (s : State) (cid va : Nat) : Nat → Option (List Byte) × State
  | 0 => (some [], s)
  | k + 1 =>
    match s.hwRead cid va k with
    | (none, s) => (none, s)
    | (some bs, s) =>
      match s.hwLoc cid ((va + k) % 2 ^ 56) false with
      | (some l, s) => (some (bs ++ [s.hwByte cid ((va + k) % 2 ^ 56) l]), s)
      | (none, s) => (none, s)

/-- Reads a number of `n` bytes. -/
def State.hwRd (s : State) (cid va n : Nat) : Option Nat × State :=
  match s.hwRead cid va n with
  | (some bs, s) => (some (leNat bs), s)
  | (none, s) => (none, s)

/-- Writes bytes of a context's memory that lie in one page; a write to a Migrating page waits (R264); none when the page fails. -/
def State.hwWrite (s : State) (cid va : Nat) (bs : List Byte) (edge : Nat := 0) : Option State :=
  match s.hwLoc cid (va % 2 ^ 56) true with
  | (some l, s) => some (match s.hwWaits cid (va % 2 ^ 56) with
    | some key => s.lateAt key (.put cid (va % 2 ^ 56) bs edge)
    | none => s.wr l bs edge)
  | (none, _) => none

/-- Writes a run of bytes, 8 at a time. -/
def State.hwWriteRun (s : State) (cid va : Nat) : List (List Byte) → Option State
  | [] => some s
  | w :: ws =>
    match s.hwWrite cid va w with
    | some s => s.hwWriteRun cid (va + 8) ws
    | none => none

/-- Writes 64-bit words of a context's memory. -/
def State.hwWords (s : State) (cid va : Nat) (ws : List Nat) : Option State :=
  s.hwWriteRun cid va (ws.map (natLe 8 ·))

/-! ### The fault queue (R259, R260) -/

/-- The eight words of a record. -/
def FRec.words (r : FRec) : List Nat :=
  [r.token * 2 ^ 32 + r.cause * 2 ^ 16 + r.agent * 2 ^ 8 + r.wr.toNat * 4 + r.rd.toNat * 2 + r.replay.toNat,
   r.va % 2 ^ 56, r.lanes * 2 ^ 32 + r.grid, r.pc.toNat, r.kid.toNat, r.opc.toNat, r.nak * 2 ^ 12 + r.core, 0]

/-- `MODE.REPLAY` of a context's fault queue, when the header can be read. -/
def State.replayOn (s : State) (cid : Nat) : Bool :=
  match (s.hwRd cid ((s.cx cid).faultq + 8) 8).1 with
  | some w => w.testBit 0
  | none => false

/-- What became of a record. -/
inductive FQRes where
  | written | full | lost
  deriving DecidableEq, Repr

/-- Writes a fault record: at `FQW`, which then advances; a full queue drops one that is not replayable and counts it in
`FQLOST`; one whose pages fail is logged as kind 11 (R259). -/
def State.faultRec (s : State) (cid : Nat) (r : FRec) : FQRes × State :=
  let base := (s.cx cid).faultq
  let lost := (FQRes.lost, s.ras 11 5 0 r.va)
  match s.hwRd cid base 8 with
  | (none, _) => lost
  | (some w0, s0) =>
    match s0.hwRd cid (base + 8) 8 with
    | (none, _) => lost
    | (some w1, s1) =>
      let fqw := w0 / 2 ^ 32
      let fqr := w0 % 2 ^ 32
      let z := bitsOf w1 8 5
      let sz := if 4 ≤ z ∧ z ≤ 16 then z else 4
      if (fqw + 2 ^ 32 - fqr) % 2 ^ 32 ≥ 2 ^ sz then
        if r.replay then (.full, s1)
        else match s1.hwRd cid (base + 16) 8 with
          | (some l, s2) =>
            (.full, (s2.hwWrite cid (base + 16) (natLe 4 (min (l % 2 ^ 32 + 1) (2 ^ 32 - 1)))).getD s2)
          | (none, _) => lost
      else
        match s1.hwWords cid (base + 64 + 64 * (fqw % 2 ^ sz)) r.words with
        | none => lost
        | some s2 =>
          match s2.hwWrite cid (base + 4) (natLe 4 ((fqw + 1) % 2 ^ 32)) with
          | some s3 => (.written, s3)
          | none => lost

end Sys2Proof.Machine
end

