-- ==== Sys2Proof/Machine/Scribe.lean ====
section
/-!
DEFINITION. Records of the trace buffer (R265, R394 to R396) and the edge records of the Scribes (R397, R398).
-/
namespace Sys2Proof.Machine

/-- Word 0x08 of a context's trace header; none when it has no trace buffer or the header cannot be read. -/
def State.traceCtl (s : State) (cid : Nat) : Option Nat :=
  if (s.cx cid).tracebase = 0 then none else (s.hwRd cid ((s.cx cid).tracebase + 8) 8).1

/-- Word 0x08 as the Scribes and samplers hold it: that of the header, or, where its page has left, as it then stood (R265). -/
def State.traceSet (s : State) (cid : Nat) : Option Nat :=
  if (s.cx cid).tracebase = 0 then none else some ((s.traceCtl cid).getD (s.cx cid).traceWord)

/-- `TSZ` of a trace header. -/
def traceSz (w : Nat) : Nat := let z := bitsOf w 32 5; if 7 ≤ z ∧ z ≤ 26 then z else 7

/-- Every page of a run of trace units is Pinned (R265). -/
def State.tracePinned (s : State) (cid : Nat) (vas : List Nat) : Bool :=
  vas.all fun va => match s.heldOf (s.cx cid).asid va with | some (_, h) => h.st == 2 | none => false

/-- Writes the units of a record at `TWR` modulo the ring. -/
def State.traceUnits (s : State) (cid base sz : Nat) : Nat → List (List Nat) → Option State
  | _, [] => some s
  | i, u :: us =>
    match s.hwWords cid (base + 64 + 32 * (i % 2 ^ sz)) u with
    | some s => s.traceUnits cid base sz (i + 1) us
    | none => none

/-- Counts a dropped record in the drop count and in `TLOST` (R265, R394). -/
def State.traceDrop (s : State) (cid : Nat) (lost : Bool) : State :=
  let s := s.modCx cid fun c => { c with drops := c.drops + 1 }
  if lost then
    match s.hwRd cid ((s.cx cid).tracebase + 16) 4 with
    | (some l, s) => (s.hwWrite cid ((s.cx cid).tracebase + 16) (natLe 4 (min (l + 1) (2 ^ 32 - 1)))).getD s
    | (none, s) => s
  else s

/-- Writes one record, given as its units of four words, into a context's trace buffer when tracing is on: with the time record
and the gap record that R394 and R395 put before it, the time record first (R395), or dropped whole: so is one whose header cannot be read (R265). -/
def State.traceWrite (s : State) (cid : Nat) (units : List (List Nat)) : State :=
  match s.traceCtl cid with
  | none => if (s.traceSet cid).any (·.testBit 0) then s.traceDrop cid false else s
  | some w =>
    if !w.testBit 0 then s
    else
      let c := s.cx cid
      let sz := traceSz w
      let gap := if c.drops = 0 then [] else [[0x0F * 2 ^ 56 + c.drops % 2 ^ 32, 0, 0, 0]]
      let tm := if c.traceRec ∧ c.lastTime / 2 ^ 32 = s.time / 2 ^ 32 then [] else [[0x0E * 2 ^ 56, s.time % 2 ^ 64, 0, 0]]
      let all := tm ++ gap ++ units
      match s.hwRd cid c.tracebase 8 with
      | (none, s) => s.traceDrop cid false
      | (some w0, s1) =>
        let twr := w0 / 2 ^ 32
        let trd := w0 % 2 ^ 32
        let vas := c.tracebase :: (upto all.length).map fun i => c.tracebase + 64 + 32 * ((twr + i) % 2 ^ sz)
        if (twr + 2 ^ 32 - trd) % 2 ^ 32 + all.length > 2 ^ sz then s1.traceDrop cid true
        else if !s1.tracePinned cid vas then s1.traceDrop cid false
        else
          match s1.traceUnits cid c.tracebase sz twr all with
          | none => s1.traceDrop cid false
          | some s2 =>
            match s2.hwWrite cid (c.tracebase + 4) (natLe 4 ((twr + all.length) % 2 ^ 32)) with
            | none => s1.traceDrop cid false
            | some s3 => s3.modCx cid fun c => { c with drops := 0, traceRec := true, lastTime := s.time }

/-- A list cut into pieces of `n`. -/
def chunksOf {α : Type} (n : Nat) : Nat → List α → List (List α)
  | 0, _ => []
  | k + 1, l => l.take n :: chunksOf n k (l.drop n)

/-- The splice-map record of a grid (R320, R396), in units of four words. -/
def SplE.units (e : SplE) : List (List Nat) :=
  let pairs := leNat (e.frags.flatMap fun f => natLe 4 (f.1 + 2 ^ 8 * f.2.1 + 2 ^ 16 * f.2.2))
  let np := (e.frags.length + 7) / 8
  let pu := (upto (4 * np)).map fun i => pairs / 2 ^ (64 * i) % 2 ^ 64
  let mw := e.map.map fun o => o.c.toNat * 2 ^ 63 + o.ch.toNat * 2 ^ 62 + o.opc / 8 * 8 % 2 ^ 56
  let body := chunksOf 4 np pu ++ chunksOf 4 ((mw.length + 3) / 4) (mw ++ [0, 0, 0])
  [0x08 * 2 ^ 56 + e.frags.length % 2 ^ 8 * 2 ^ 48 + body.length, e.kidP.toNat, e.kidC.toNat,
   e.id % 2 ^ 32 * 2 ^ 32 + e.rp % 2 ^ 8 * 2 ^ 24 + e.sp % 2 ^ 24] :: body

/-- The map of a spliced grid goes to its context's trace buffer (R320). -/
def State.writeMap (s : State) (gid : Nat) : State :=
  match (s.gr gid).spl.bind fun id => s.splices.find? (·.id == id) with
  | some e => (s.setGr gid { s.gr gid with mapOut := true }).traceWrite (s.gr gid).cid e.units
  | none => s

/-- The maps of a context's spliced grids with blocks on the cores go to its trace buffer, when it is Saved or faulted (R320). -/
def State.writeMaps (s : State) (cid : Nat) : State :=
  let ids := (s.grid.filter fun x => x.2.live && x.2.cid == cid && s.blk.any fun y => y.2.live && y.2.gid == x.1).map (·.1)
  ids.foldl (fun s g => s.writeMap g) s

/-- The lead CP closes a core dump in progress with an XN_TRUNC note (R406). -/
def State.closeDump (s : State) (cid : Nat) : State :=
  let tb := (s.cx cid).tracebase
  let fail := s.ras 9 5 0 0
  match (s.hwRd cid (tb + 0x18) 8).1 with
  | none => s
  | some d =>
    let c := d % 2 ^ 56
    if tb = 0 ∨ c = 0 then s
    else match (s.hwRd cid c 8).1, (s.hwRd cid (c + 8) 8).1, (s.hwRd cid (c + 16) 8).1 with
      | some file, some cur, some note =>
        if cur < 120 then fail
        else
          let open' := note ≠ 2 ^ 64 - 1
          let typ := if open' then ((s.hwRd cid (file + note + 8) 4).1).getD 0 else 0
          let len := if open' then cur - (note + 16) else 0
          let at' := (cur + 3) / 4 * 4
          let trunc := [4, 12, 7, 0x00394E58, typ, len, 1].map (natLe 4 ·)
          let off := ((s.hwRd cid (file + 72) 8).1).getD 0
          let s1 := if open' then s.hwWrite cid (file + note + 4) (natLe 4 len) else some s
          match s1.bind fun s => trunc.foldl (fun (a : Option State × Nat) w =>
              (a.1.bind fun s => s.hwWrite cid (file + at' + a.2) w, a.2 + 4)) (some s, 0) |>.1 with
          | none => fail
          | some s => (s.hwWrite cid (file + 96) (natLe 8 (at' + 28 - off))).getD fail
      | _, _, _ => fail

/-- The 28 low bits that number an edge of a die (R397). -/
def edgeLow (die ctr : Nat) : Nat := die * 2 ^ 26 + ctr

/-- The words of an edge record (R397). -/
def Edge.words (e : Edge) (id : Nat) : List Nat :=
  [0x01 * 2 ^ 56 + e.kind * 2 ^ 52 + id % 2 ^ 28 * 2 ^ 24 + e.waiter % 2 ^ 24,
   e.time % 2 ^ 40 * 2 ^ 24 + e.prod % 2 ^ 24, e.obj % 2 ^ 56, e.pred % 2 ^ 48 * 2 ^ 16]

/-- The Scribe of a die makes an edge record, numbers it, keeps it among its last 65,536, and writes it to the trace buffers of
the released agents' contexts where edge records are on (R397 to R399). -/
def State.newEdgeFor (s : State) (die : Nat) (cids : List Nat) (e : Edge) : Nat × State :=
  let n := (s.di die).edgeCtr
  let id := s.gdn * 2 ^ 28 + edgeLow die n
  let e := { e with time := s.time }
  let s := s.modDi die fun d => { d with edgeCtr := if n + 1 < 2 ^ 26 then n + 1 else 1 }
  let mine := s.edgeOrder.filter fun k => k / 2 ^ 26 % 4 == die
  let s := if mine.length < 65536 then s
    else match mine with
      | old :: _ => { s with edges := Tbl.set {} s.edges old {}, edgeOrder := s.edgeOrder.erase old }
      | [] => s
  let s := { s with edges := Tbl.set {} s.edges id e, edgeOrder := s.edgeOrder ++ [id] }
  (id, cids.foldl (fun s cid => if (s.traceSet cid).any (·.testBit 1) then s.traceWrite cid [e.words id] else s) s)

/-- An edge record for agents of one context. -/
def State.newEdge (s : State) (die cid : Nat) (e : Edge) : Nat × State := s.newEdgeFor die [cid] e

/-- A root edge id: it names no record (R397). -/
def State.rootEdge (s : State) (die : Nat) : Nat := s.gdn * 2 ^ 28 + die * 2 ^ 26

/-- The local id of a thread (R267): core, gang slot on the core, lane. -/
def State.threadLid (s : State) (tid : Nat) : Nat :=
  let core := s.coreOf tid
  let mine := s.blk.filter fun (_, b) => b.live && b.core == core
  let before := mine.filter fun (k, _) => k < tidBlk tid
  let slot := (before.map fun (_, b) => (s.gr b.gid).gangs).sum + tidGang tid
  core * 2 ^ 12 + slot % 64 * 2 ^ 6 + tidLane tid

/-- The mark of a thread's write. -/
def State.stamp (s : State) (tid : Nat) : Nat := stampOf (s.th tid).edge (s.threadLid tid)

/-- The local id of a BTU channel (R267). -/
def chanLid (core ch : Nat) : Nat := 2 ^ 22 + core * 2 ^ 12 + ch
/-- The local id of a Truss engine (R267). -/
def engineLid (e : Nat) : Nat := 2 * 2 ^ 22 + e
/-- The local id of a CP thread (R267). -/
def cpLid (die thr : Nat) : Nat := 3 * 2 ^ 22 + die * 2 ^ 5 + thr
/-- The local id of a hart (R267). -/
def hartLid (h : Nat) : Nat := 3 * 2 ^ 22 + 2 ^ 7 + h
/-- Several agents, or an agent of no device of this package (R397). -/
def noLid : Nat := 0xFFFFFF

end Sys2Proof.Machine
end

