-- ==== Sys2Proof/Machine/Reclaim.lean ====
section
/-!
DEFINITION. What several families share about queues and partitions: the two homes of a queue's fields (R45), the release of
packets and handles (R61 to R64), homes of lines (R224), and the clearing of a queue, an engine and a partition (R36, R69).
-/
namespace Sys2Proof.Machine

/-! ### Queue fields -/

/-- The descriptor of a queue (R45). -/
def State.qdesc (s : State) (q : Nat) : Nat := s.pkg.qdbase + 64 * q

/-- `SZ` of a queue, as the descriptor holds it: R45 names no check of its range or of the alignment of `RING`, and none is made (log 83). -/
def State.qsz (s : State) (q : Nat) : Nat := bitsOf (s.rd (s.qdesc q) 8) 56 5
/-- `RING` of a queue. -/
def State.qring (s : State) (q : Nat) : Nat := s.rd (s.qdesc q) 8 % 2 ^ 56

/-- The fields of a queue: from its CP thread while it is mapped, else from its descriptor (R45). -/
def State.qv (s : State) (q : Nat) : QHeld :=
  let held := Tbl.get {} s.q q
  if held.mapped then held
  else
    let d := s.qdesc q
    let w := s.rd (d + 8) 8
    let x := s.rd (d + 0x10) 8
    let z := s.rd (d + 0x30) 8
    { mapped := false, widx := w / 2 ^ 32, ridx := w % 2 ^ 32, cid := bitsOf x 56 8, pcls := bitsOf x 52 4,
      weight := bitsOf x 32 16, deficit := sextNat 64 (s.rd (d + 0x18) 8), wakea := s.rd (d + 0x20) 8 % 2 ^ 56,
      wakev := s.rd (d + 0x28) 8, wp := z.testBit 63, qst := bitsOf z 60 3, qfc := bitsOf z 52 8, fidx := z % 2 ^ 32,
      die := bitsOf z 46 2, thr := bitsOf z 40 5, since := held.since }

/-- The words of the fields at offsets 0x08 to 0x30. -/
def QHeld.words (h : QHeld) : List Nat :=
  [h.widx % 2 ^ 32 * 2 ^ 32 + h.ridx % 2 ^ 32,
   h.cid * 2 ^ 56 + h.pcls * 2 ^ 52 + h.weight * 2 ^ 32,
   wrapN 64 h.deficit, h.wakea, h.wakev,
   h.wp.toNat * 2 ^ 63 + h.qst * 2 ^ 60 + h.qfc * 2 ^ 52 + h.die * 2 ^ 46 + h.thr * 2 ^ 40 + h.fidx % 2 ^ 32]

/-- The fields of a queue written where they live: in the CP thread while it is mapped, else in the descriptor. -/
def State.qput (s : State) (q : Nat) (h : QHeld) : State :=
  if h.mapped then { s with q := Tbl.set {} s.q q h }
  else
    let s := { s with q := Tbl.set {} s.q q { since := h.since } }
    s.wr (s.qdesc q + 8) (h.words.flatMap (natLe 8 ·))

/-- The address of a queue's ring status block (R46). -/
def State.ringEnd (s : State) (q : Nat) : Nat := s.qring q + 2 ^ s.qsz q * 64

/-- Word `i` of a queue's ring status block (R46); none when it cannot be written. -/
def State.ringStatus (s : State) (q i x : Nat) : Option State := s.hwWrite (s.qv q).cid (s.ringEnd q + 8 * i) (natLe 8 x)

/-- A slot that a queue's LOADSCHED made Loaded returns to its former state (R375). -/
def State.unload (s : State) (q : Nat) : State :=
  (s.slot.filter fun x => x.2.loader.any fun l => l.1 == q).foldl (fun s x =>
    s.modSl x.1 fun y => { y with st := (y.loader.map (·.2)).getD y.st, loader := none }) s

/-- A queue faults: `QFC` and `FIDX` are recorded in the CP thread, the status block and the descriptor (R49); the CP thread is
freed. -/
def State.qfault (s : State) (q code : Nat) : State :=
  let s := s.unload q
  let h := s.qv q
  let s := s.qput q { h with mapped := false, qst := 5, qfc := code, fidx := h.ridx }
  let s := (s.ringStatus q 0 h.ridx).getD s
  (s.ringStatus q 1 code).getD s

/-- A reset of rung 3 or above is in progress that affects a context (R69): it is named by a partition, a die or a function, or every one is. -/
def State.resetHits (s : State) (cid : Nat) : Bool :=
  match s.pkg.reset with
  | some (3, t) | some (4, t) => let dies := (s.cx cid).dies; decide (2 ≤ (s.cx cid).state) && (if s.pkg.reset = some (3, t) then dies == t else dies.testBit t)
  | some (5, t) => (s.cx cid).func == t
  | some (6, _) => true
  | _ => false

/-- A reset of rung 4 or above is in progress (R359). -/
def State.noService (s : State) : Bool := s.pkg.reset.any fun x => decide (4 ≤ x.1)

/-- A doorbell write (R47): latched in `WIDX` while a reset of rung 3 or above affects the queue's context (R69); ignored for a Disabled or Faulted
queue; a bad index faults the queue; otherwise `WIDX` moves, and an empty unmapped queue becomes a candidate from now on.  During an unmapping it is
latched as `WP` (R60). -/
def State.doorbell (s : State) (q x : Nat) : State :=
  let h := s.qv q
  let w := x % 2 ^ 32
  let ahead (a : Nat) : Nat := (a + 2 ^ 32 - h.ridx) % 2 ^ 32
  if s.resetHits h.cid then
    let k := match Tbl.get none s.pkg.latched q with | some k => k | none => h.widx
    ({ s with pkg := { s.pkg with latched := Tbl.set none s.pkg.latched q (some k) } }).qput q { h with widx := w }
  else if h.qst = 0 ∨ h.qst = 5 then s
  else if ahead w > 2 ^ s.qsz q ∨ ahead w < ahead h.widx then s.qfault q 3
  else s.qput q { h with widx := w, wp := h.wp || h.qst == 4, since := if h.widx = h.ridx then s.time else h.since }

/-! ### Handles and outstanding packets -/

/-- A packet is released as completed in the handle table (R61, R63, R64): it leaves the readers and writers; the splice cache entries
tagged with a handle it writes are invalidated; an entry of the table without reader and writer is freed. -/
def State.releaseHandles (s : State) (q idx : Nat) : State :=
  let wrote := (s.pkts.filter fun p => p.q == q && p.idx == idx).flatMap fun p => p.writes.map fun h => (p.cid, h)
  { s with
    handles := (s.handles.map fun h =>
        { h with writer := if h.writer = some (q, idx) then none else h.writer, readers := h.readers.filter (· != (q, idx)) }).filter
      fun h => h.writer.isSome || !h.readers.isEmpty
    splices := s.splices.filterMap fun e =>
      if wrote.any fun (c, h) => e.cid == c && e.tags.contains h then (if e.pins = 0 then none else some { e with valid := false })
      else some e }

/-- A packet leaves the outstanding packets, released as completed; its completion signal is not written (R64). -/
def State.dropPkt (s : State) (q idx : Nat) : State :=
  { s.releaseHandles q idx with pkts := s.pkts.filter fun p => !(p.q == q && p.idx == idx) }

/-- Drops packets of a queue. -/
def State.dropPkts (s : State) (q : Nat) : List Nat → State
  | [] => s
  | i :: is => (s.dropPkt q i).dropPkts q is

/-- A rung-1 reset of a queue (R69): packets not begun, and a WAIT that is not satisfied, are discarded; an unmapping or DISABLE in progress
ends. -/
def State.resetQueue (s : State) (q : Nat) : State :=
  let h := s.qv q
  let mine (m : Move) : Bool := m == .event (.queueUnmap q true) || m == .event (.queueUnmap q false)
  let s : State := { s.unload q with watch := Tbl.set {} s.watch q {}, agenda := s.agenda.filter fun m => !mine m }
  let s := s.dropPkts q ((s.pkts.filter fun (p : OutPkt) => p.q == q && !p.begun).map (·.idx))
  s.qput q { h with mapped := false, ridx := h.widx, wp := false, wakea := 0, qfc := 0,
                    qst := if h.qst = 0 then 0 else 1 }

/-- The queues that a context owns among those whose state is not Disabled, and those mapped. -/
def State.queuesOf (s : State) (cid : Nat) : List Nat :=
  (upto 4096).filter fun q => let h := s.qv q; h.cid == cid && h.qst != 0

/-- The queues of a context that a reset at rung 1 changes (R32, R69): those, and the Disabled ones whose fields it clears (R68). -/
def State.resetsOf (s : State) (cid : Nat) : List Nat :=
  (upto 4096).filter fun q =>
    let h := s.qv q
    h.cid == cid && (h.qst != 0 || h.ridx != h.widx || h.wp || h.wakea != 0 || h.qfc != 0 || Tbl.get {} s.watch q != {})

/-! ### Homes of lines (R224) -/

/-- The die mask of a region. -/
def State.homeMask (s : State) (pa : Nat) : Nat := Tbl.get 15 s.pkg.homecfg (pa / 2 ^ 29)

/-- The dies of a mask, lowest first. -/
def maskDies (m : Nat) : List Nat := [0, 1, 2, 3].filter fun d => m.testBit d

/-- The home slice of a line: its die, and which of the die's 32 L2 slices. -/
def State.homeSlice (s : State) (pa : Nat) : Nat × Nat :=
  let ds := maskDies (s.homeMask pa)
  let h := Config.homeHash (pa / 128) % (32 * ds.length)
  (ds.getD (h / 32) 0, h % 32)

/-- The die whose L2 slices hold a line. -/
def State.homeDie (s : State) (pa : Nat) : Nat := (s.homeSlice pa).1

/-- The die of the home of a location: its core's die for scratchpad, else the die of its home slice. -/
def State.locDie (s : State) (loc : Nat) : Nat :=
  if loc < 2 ^ 52 then s.homeDie loc else coreDie ((loc - 2 ^ 52) / 2 ^ 30)

/-- The set of a level that holds a line (R223): of L2, that of its home slice; of the LLC, its slice's. -/
def State.lockSet (s : State) (lvl line : Nat) : (Nat × Nat) × Nat :=
  if lvl = 0 then (s.homeSlice (128 * line), Config.l2Set line % 1024) else ((0, 0), Config.llcSet line)

/-! ### Clearing -/

/-- Removes a block: its threads, its gangs and its place on the core, whose cluster's idle time begins anew (R101); fabric requests of its
threads are then the context's. -/
def State.dropBlk (s : State) (bid : Nat) : State :=
  let b := s.bk bid
  let cid := (s.gr b.gid).cid
  let s := s.setCc (coreCcl b.core) { s.cc (coreCcl b.core) with since := s.time }
  { s with
    fab := { s.fab with out := s.fab.out.map fun r => match r.owner with
      | .thread t =>
        if t / 1024 = bid then
          { r with owner := .ctx cid, fva := (((s.th t).pend.find? fun p => p.src == .fabric r.pk.tag).map (·.fva)).getD 0 }
        else r
      | _ => r }
    thr := s.thr.filter fun (k, _) => k / 1024 != bid
    gang := s.gang.filter fun (k, _) => k / 32 != bid
    blk := Tbl.set {} s.blk bid {} }

/-- Removes blocks. -/
def State.dropBlks (s : State) : List Nat → State
  | [] => s
  | b :: bs => (s.dropBlk b).dropBlks bs

/-- A core is cleared: no group, no transfer, no matrix operation; its counters and bucket stay. -/
def State.clearCore (s : State) (c : Nat) : State :=
  s.modCo c fun x => { x with grp := none, parked := [], last := none, replay := [], chans := [{}, {}, {}, {}], mu := [], muBusy := false, muOut := [], stall := none, table := [], sampled := [],
                              testing := false }

/-- Clears the cores of a list. -/
def State.clearCores (s : State) : List Nat → State
  | [] => s
  | c :: cs => (s.clearCore c).clearCores cs

/-- A slot becomes Faulted (R388): the packet that armed the run is released as completed, without its signal. -/
def State.slotDown (s : State) (n reason : Nat) : State :=
  let x := s.sl n
  let s := match x.armer with | some (q, i) => s.dropPkt q i | none => s
  s.setSl n { x with st := 7, frsn := reason, wait := .none, ops := [], todo := [], armer := none, pend := none }

/-- The slots bound to an engine that is reset become Faulted with reason 10 (R69, R375, R388). -/
def State.resetEngine (s : State) (e : Nat) : State :=
  (s.slot.filter fun x => x.2.eng == e && decide (2 ≤ x.2.st) && decide (x.2.st ≤ 6)).foldl (fun s x => s.slotDown x.1 10) s

/-- Resets a list of engines. -/
def State.resetEngines (s : State) : List Nat → State
  | [] => s
  | e :: es => (s.resetEngine e).resetEngines es

/-- Every queue mapped on a CP is written back as Faulted with `QFC` = RESET (R69). -/
def State.resetCp (s : State) (die : Nat) : State :=
  (s.q.filter fun (_, h) => h.mapped && h.die == die).foldl (fun s (q, _) => s.qfault q 6) s

/-- Rung-1 resets of a list of queues. -/
def State.resetQueues (s : State) : List Nat → State
  | [] => s
  | q :: qs => (s.resetQueue q).resetQueues qs

/-- The packets of a grid, both of a spliced pair (R319), are released as completed without a signal; a collector gang has none. -/
def State.dropGridPkts (s : State) (g : Grid) : State := if g.node.isSome then s else s.dropPkts g.q (g.idx :: g.pair.toList)

/-- The grids of a context end. -/
def State.dropGrids (s : State) (cid : Nat) : State :=
  let gs := s.grid.filter fun (_, g) => g.live && g.cid == cid
  let s := gs.foldl (fun s (_, g) => s.dropGridPkts g) s
  { s with grid := s.grid.filter fun (_, g) => g.cid != cid }

/-- The COPY packets whose transfers stand on the cores of a die mask, as (queue, index). -/
def State.copiesOn (s : State) (dies : Nat) : List (Nat × Nat) :=
  (s.core.filter fun (c, _) => inMask dies (coreDie c)).flatMap fun (_, c) => c.chans.flatMap fun k => k.xs.filterMap fun x =>
    x.copy.map fun y => (y.1, y.2.1)

/-- The hints of a context leave every die's queue (R344). -/
def State.dropHints (s : State) (cid : Nat) : State :=
  [0, 1, 2, 3].foldl (fun s d => s.modDi d fun x => { x with hints := x.hints.filter fun h => h.1 != cid }) s

/-- The cores, CPs, engines and L2 slices of a die mask are cleared; the context that runs there becomes Faulted with a cause,
and its queues are reset as at rung 1 (R36, R69). -/
def State.reclaim (s : State) (dies cause : Nat) : State :=
  let run := (s.ctx.filter fun (_, c) => (c.state == 4 || c.state == 5) && c.dies &&& dies != 0).map (·.1)
  let s := run.foldl (fun s cid => ((s.modCx cid fun c => { c with state := 7, fcause := cause, cbusy := false }).resetQueues
    (s.resetsOf cid)).dropHints cid) s
  let s := run.foldl (fun s cid => s.writeMaps cid) s
  let bs := (s.blk.filter fun (_, b) => b.live && inMask dies (coreDie b.core)).map (·.1)
  let s := s.dropBlks bs
  let s := run.foldl (fun s cid => s.dropGrids cid) s
  let s := (s.copiesOn dies).foldl (fun s x => s.dropPkt x.1 x.2) s
  let s := s.clearCores ((s.core.filter fun (c, _) => inMask dies (coreDie c)).map (·.1))
  let s := (maskDies dies).foldl (fun s d => s.resetCp d) s
  let s := s.resetEngines ((upto 16).filter fun e => inMask dies (e / 4))
  { s with
    locks := s.locks.filter fun l => !(l.lvl == 0 && inMask dies (s.homeDie (l.line * 128)))
    node := s.node.filter fun (k, _) => k / 256 &&& dies == 0
    recs := s.recs.filter fun r => r.dies &&& dies == 0
    faults := s.faults.filter fun f => !(f.grp.members.any fun t => bs.contains (tidBlk t))
    splices := s.splices.filter fun e => !run.contains e.cid }

/-- The context becomes Faulted with a cause, and its partition's cores are reclaimed (R36, R116); a trap in a handler that was
writing a core dump closes it first (R406). -/
def State.ctxFault (s : State) (cid cause : Nat) : State :=
  let s := if cause = 2 then s.closeDump cid else s
  let s := s.modCx cid fun c => { c with cstat := if cause = 1 then 8 else c.cstat }
  s.reclaim (s.cx cid).dies cause

end Sys2Proof.Machine
end

