-- ==== Sys2Proof/Machine/Ops.lean ====
section
/-!
DEFINITION. The shared operations of the core instructions: taking an exception (R113 to R116) and returning from one (R201), the
word checks of R92, the running of one slot for an issue group (R85, R106), and its end (R86, R87).
-/
namespace Sys2Proof.Machine

/-! ### Trap causes (R197) -/

/-- ILLEGAL_OPCODE. -/
def cIllOp : Nat := 0x01
/-- ILLEGAL_ENCODING. -/
def cIllEnc : Nat := 0x02
/-- ILLEGAL_CLAUSE. -/
def cIllClause : Nat := 0x03
/-- ILLEGAL_OPERAND. -/
def cIllOpnd : Nat := 0x04
/-- ILL_LATCH. -/
def cIllLatch : Nat := 0x05
/-- PRIV. -/
def cPriv : Nat := 0x06
/-- MISALIGN. -/
def cMisalign : Nat := 0x07
/-- PAGE. -/
def cPage : Nat := 0x08
/-- PAGE_FATAL. -/
def cPageFatal : Nat := 0x09
/-- ACCESS. -/
def cAccess : Nat := 0x0A
/-- ECC_REG. -/
def cEccReg : Nat := 0x0B
/-- ECC_MEM. -/
def cEccMem : Nat := 0x0C
/-- TRANSIENT_VACATED. -/
def cVacated : Nat := 0x0D
/-- FABRIC. -/
def cFabric : Nat := 0x0E
/-- MULTICAST_PARTIAL. -/
def cMcast : Nat := 0x0F
/-- BARRIER_OVERFLOW. -/
def cBarrier : Nat := 0x10
/-- TEMPLATE. -/
def cTemplate : Nat := 0x11
/-- JOIN_UNSET. -/
def cJoinUnset : Nat := 0x12
/-- DIVERGED_JOIN. -/
def cDiverged : Nat := 0x13
/-- BKPT. -/
def cBkpt : Nat := 0x14
/-- SOFT. -/
def cSoft : Nat := 0x15
/-- PREEMPT. -/
def cPreempt : Nat := 0x16
/-- HALT. -/
def cHalt : Nat := 0x17

/-! ### Taking an exception and returning -/

/-- The origin of a word of a grid's spliced code (R113, R317): its original kernel and address; none outside spliced code. -/
def State.originIn (s : State) (g : Grid) (addr : Nat) : Option Origin :=
  g.spl.bind fun id => (s.splices.find? (·.id == id)).bind fun e => e.map.find? (·.addr == addr)

/-- The origin of a word for a thread. -/
def State.origin (s : State) (tid : Nat) (addr : Nat) : Option Origin := s.originIn (s.gridOf tid) addr

/-- Whether a PC value of a grid lies in spliced code, and the kernel identifier and PC that it had before (R113, R321). -/
def State.originalIn (s : State) (g : Grid) (pc : DWord) : Bool × DWord × DWord :=
  match s.originIn g (pcAddr pc) with
  | some o => (true, o.kid, mkPc o.opc (pcSlot pc))
  | none => (false, g.kid, pc)

/-- The same for a thread. -/
def State.original (s : State) (tid : Nat) (pc : DWord) : Bool × DWord × DWord := s.originalIn (s.gridOf tid) pc

/-- The linear index of a block in its grid (R389). -/
def Grid.linear (g : Grid) (b : Blk) : Nat := b.bx + g.gx * (b.by' + g.gy * b.bz)

/-- A stop-form halt posts a debug event to both queues (R391, R393). -/
def State.dbgEvent (s : State) (tid reason n : Nat) : State :=
  let g := s.gridOf tid
  let (_, kid, opc) := s.original tid (s.th tid).pc
  let x := leNat (natLe 4 g.num ++ natLe 8 (g.linear (s.blkOf tid)) ++ natLe 4 (tidGang tid) ++ natLe 4 (tidLane tid) ++
    natLe 4 g.cid ++ natLe 8 (s.th tid).pc.toNat ++ natLe 8 opc.toNat ++ natLe 8 kid.toNat ++ natLe 4 reason ++ natLe 4 n ++
    natLe 8 s.time)
  let ev : List DWord := (upto 8).map fun i => .ofNat 64 (x / 2 ^ (64 * i))
  { s with mg := { s.mg with dbg := s.mg.dbg.map fun q =>
      if q.evs.length < 512 then { q with evs := q.evs ++ ev } else { q with dropped := min (q.dropped + 1) (2 ^ 32 - 1) } } }

/-- A thread enters Halted (R117, R391), with which every posted halt is over (log 72). -/
def Thr.stop (t : Thr) : Thr :=
  { t with st := .halted, wait := .none, token := none, deferred := false, stepping := false, stepDue := false, halt := none }

/-- A thread enters Halted, and the debug event says why. -/
def State.stopThread (s : State) (tid reason n : Nat) : State := (s.modTh tid Thr.stop).dbgEvent tid reason n

/-- A register number of a trap at a word of spliced code, in the unspliced view (R321). -/
def State.origReg (s : State) (tid addr n : Nat) : Nat :=
  match s.origin tid addr, (s.gridOf tid).spl with
  | some o, some id =>
    if o.c then
      match s.splices.find? (·.id == id) with
      | some e =>
        match e.frags.find? fun f => f.1 ≤ n && n < f.1 + f.2.2 with
        | some f => f.2.1 + (n - f.1)
        | none => n - e.rp
      | none => n
    else n
  | _, _ => n

/-- The `TVAL` of a cause in the unspliced view (R321): the register number of ECC_REG and ILLEGAL_OPERAND. -/
def State.origTval (s : State) (tid code : Nat) (tval pc : DWord) : DWord :=
  let n := tval.toNat % 256
  if (code = cEccReg ∨ code = cIllOpnd) ∧ n < 240 then .ofNat 64 (tval.toNat - n + s.origReg tid (pcAddr pc) n) else tval

/-- The location of a register of a thread in the RAS log (R417; its layout is the model's, log 92): register and lane as in `TVAL`, gang, grid
number, linear block index. -/
def State.regPlace (s : State) (tid tval : Nat) : Nat :=
  tval + 2 ^ 16 * tidGang tid + 2 ^ 32 * (s.gridOf tid).num + 2 ^ 64 * (s.gridOf tid).linear (s.blkOf tid)

/-- A thread takes an exception (R115): its trap state is written, its latches go to the shadow, and it waits at its handler
entry until its flags are zero (HANDLER_ENTER).  With `INH` = 1 the context becomes Faulted instead, with `FCAUSE` 2 (R116),
or 4 when a save reads a poisoned register word, logged with the thread and the register (R36).  A thread that the debugger lets run one slot
halts after its return (R390). -/
def State.takeTrap (s : State) (tid code : Nat) (tval pc : DWord) : State :=
  let t := s.th tid
  let cid := s.cidOf tid
  if t.inh then
    if (s.cx cid).state = 5 ∧ t.save = .inHandler ∧ code = cEccReg then (s.ras 2 0 (s.coreOf tid) (s.regPlace tid tval.toNat)).ctxFault cid 4
    else s.ctxFault cid 2
  else
    let (spl, kid, opc) := s.original tid pc
    s.setTh tid { t with
      tpc := pc, tcode := code, tspl := spl, thlp := t.helper, tval := s.origTval tid code tval pc, tkid := kid, topc := opc
      pp := match t.lvl with | .u => 0 | .s => 1 | .f => 2
      inh := true, tst := t.code, shadow := t.latches
      latches := t.latches.map fun l => { l with valid := 0 }
      pc := pc, st := .entering, wait := .none, deferred := false, token := none
      stepping := false, stepDue := t.stepping || t.stepDue }

/-- The entry into the handler, once every flag is zero (R110, R115): level S, PC at `TVEC`. -/
def State.enterHandler (s : State) (tid : Nat) : State :=
  s.modTh tid fun t => { t with
    st := .ready, lvl := .s, pc := mkPc (s.cx (s.cidOf tid)).tvec 0, errs := t.errs.map fun e => { e with outer := true } }

/-- The return from a handler (R201, R115): the live latches from the shadow, `INH` cleared, level `PP`, PC ← `TPC`, Halted when
the status word's `HLT` is set, which is then 0 (log 97).  The return from the PREEMPT handler of a save ends the thread's save (log 94). -/
def State.returnTrap (s : State) (tid : Nat) : State :=
  s.modTh tid fun t => { t with
    latches := t.shadow, inh := false, lvl := if t.pp = 0 then .u else .s, pc := t.tpc
    st := if t.hlt then .halted else .ready, hlt := false, wait := .none, errs := t.errs.map fun e => { e with outer := false }
    save := if t.save = .inHandler then .done else t.save }

/-- A thread that is still resident. -/
def State.resident (s : State) (tid : Nat) : Bool := (s.blkOf tid).live

/-- A change of a thread that is still resident. -/
def State.modRes (s : State) (tid : Nat) (f : Thr → Thr) : State :=
  if s.resident tid then s.modTh tid f else s

/-! ### Operand values -/

/-- The value of a 32-bit source operand (R83). -/
def Thr.val (t : Thr) : Opnd → Word
  | .reg n => t.reg n.val
  | .latch k => (t.latch k.val).val
  | .vz => 0
  | .vo => -1
  | .kreg k => t.kregs.getD k.val 0
  | .rsvd _ => 0

/-- The `n` words of a source operand that spans registers (R84). -/
def Thr.vals (t : Thr) (n : Nat) : Opnd → List Word
  | .reg r => (upto n).map fun i => t.reg (r.val + i)
  | .vo => (upto n).map fun _ => -1
  | .vz => (upto n).map fun _ => 0
  | o => t.val o :: (upto (n - 1)).map fun _ => 0

/-- A pair as one value (R84): the named register holds bits 31:0. -/
def Thr.val64 (t : Thr) (o : Opnd) : DWord :=
  match t.vals 2 o with
  | [lo, hi] => hi ++ lo
  | _ => 0

/-- Registers written from one on. -/
def Thr.setRegs (t : Thr) : Nat → List Word → Thr
  | _, [] => t
  | n, w :: ws => (t.setReg n w).setRegs (n + 1) ws

/-- A destination written (R83, R84): `vz` discards. -/
def Thr.write (t : Thr) (o : Opnd) (ws : List Word) : Thr :=
  match o with
  | .reg n => t.setRegs n.val ws
  | .kreg k => { t with kregs := setAt 0 t.kregs k.val (ws.headD 0) }
  | _ => t

/-- The words of a 64-bit value, low word first. -/
def words64 (x : DWord) : List Word := [x.setWidth 32, (x >>> 32).setWidth 32]

/-- The value of the guard (R85). -/
def Thr.guardOn (t : Thr) : Guard → Bool
  | .always => true
  | .on neg o => (t.val o).getLsbD 0 != neg

/-! ### The word checks of R92 -/

/-- What an instruction sees of its slot: the core, the group, the word's opcode and fields, the members with a true guard in
ascending lane order, and the state before the slot. -/
structure Env where
  core : Nat
  grp : Group
  op : Nat
  body : Body
  active : List Nat
  s0 : State

/-- The PC value of a group's slot (R78). -/
def Group.pc (g : Group) : DWord := mkPc (g.addr + 8 * g.slot) g.slot
/-- The PC value after the slot: the next slot, or the header after the clause. -/
def Group.nextPc (g : Group) : DWord :=
  if g.slot < hdrLen g.hdr then mkPc (g.addr + 8 * (g.slot + 1)) (g.slot + 1) else mkPc (g.addr + 8 * (hdrLen g.hdr + 1)) 0
/-- The slot is the clause's last. -/
def Group.last (g : Group) : Bool := g.slot == hdrLen g.hdr

/-- A level as a number. -/
def Lvl.num : Lvl → Nat
  | .u => 0 | .s => 1 | .f => 2

/-- Check 2: admission set and position of a transfer (R77). -/
def Group.clauseOk (g : Group) (op : Nat) : Bool :=
  (opSet op).admitted (hdrCls g.hdr) && (if opTransfer op then g.last && hdrBr g.hdr else !(g.last && hdrBr g.hdr))

/-- The tile descriptor that a word at an address names (R240, R316): the consumer's in a word of its origin. -/
def State.tileOf (s : State) (tid addr idx : Nat) : Option Tile :=
  match s.origin tid addr, (s.gridOf tid).spl with
  | some o, some id => if o.c then (s.splices.find? (·.id == id)).bind fun e => e.tilesC[idx]? else (s.gridOf tid).tiles[idx]?
  | _, _ => (s.gridOf tid).tiles[idx]?

/-- Registers of a lane's fragment. -/
def Tile.regs (d : Tile) : Nat :=
  let n := fragRegs d.shape
  match d.role with | 0 => n.2.1 | 1 => n.2.2 | _ => n.1

/-- The memory fields of a tile word (R240). -/
def Env.tileWord (e : Env) : Option Mem :=
  match e.body with
  | .mem f => if e.op = 0x98 ∨ e.op = 0x99 then some f else none
  | _ => none

/-- The descriptor that a tile word names. -/
def Env.tile (e : Env) : Option Tile :=
  e.tileWord.bind fun f => e.s0.tileOf (e.grp.members.headD 0) (pcAddr e.grp.pc) (f.off.toNat / 64)

/-- The fragment operand of a tile word, with its field number. -/
def Env.fragOpnd (e : Env) (f : Mem) : Nat × Opnd := if e.op = 0x98 then (0, f.d) else (4, f.x)

/-- A tile word names an index at or beyond the number of descriptors: ILLEGAL_ENCODING (R240). -/
def Env.badTile (e : Env) : Bool := e.tileWord.isSome && e.tile.isNone

/-- The fragment operand of a tile word that is not permitted (R240), with its field number. -/
def Env.badFrag (e : Env) (regs : Nat) : Option (Nat × Opnd) :=
  match e.tileWord, e.tile with
  | some f, some d => match (e.fragOpnd f).2 with
    | .reg r => if r.val % d.regs ≠ 0 ∨ regs < r.val + d.regs then some (e.fragOpnd f) else none
    | _ => none
  | _, _ => none

/-- The register words that a slot reads: of `TST` the whole fragment (R118, R240). -/
def Env.readRegs (e : Env) : List Nat :=
  e.body.readRegs e.op ++ (match e.tileWord, e.tile with
    | some f, some d => (match e.op, f.x with | 0x99, .reg r => (upto d.regs).map (r.val + ·) | _, _ => [])
    | _, _ => [])

/-- The first source latch of a thread that is not valid. -/
def Thr.badLatch (t : Thr) (us : List (Use × Opnd)) : Option Nat :=
  us.findSome? fun u => match u with
    | (.unused, _) => none
    | (_, .latch k) => if (t.latch k.val).valid = 0 then some k.val else none
    | _ => none

/-- The cause that a member raises at a slot. -/
abbrev Cause := Nat × DWord

/-- The members that read a register word in error with an active lane of the word (R118): ECC_REG, `TVAL` register and lane. -/
def eccTraps (s : State) (active : List Nat) (regs : List Nat) : List (Nat × Cause) :=
  active.filterMap fun tid =>
    let g := s.gg (tidGk tid)
    (regs.find? fun r => let k := 256 * (tidLane tid / 2) + r; g.poison.contains k || g.latent.contains k).map fun r =>
      (tid, cEccReg, BitVec.ofNat 64 (r + 256 * tidLane tid))

/-- What a slot finds in the register words that it reads (R118): latent uncorrectable errors in words without an active lane become poison marks,
logged; correctable errors are corrected and logged, once for a word. -/
def State.markLatent (s : State) (core : Nat) (members active : List Nat) (regs : List Nat) : State :=
  members.foldl (fun s tid =>
    let pair := tidLane tid / 2
    let act := active.any fun a => tidGk a == tidGk tid && tidLane a / 2 == pair
    let first := (members.find? fun t => tidGk t == tidGk tid && tidLane t / 2 == pair) == some tid
    regs.foldl (fun s r =>
      let k := 256 * pair + r
      let g := s.gg (tidGk tid)
      if !act && g.latent.contains k then
        (s.setGg (tidGk tid) { g with latent := g.latent.erase k, poison := g.poison ++ [k] }).ras 2 0 core (pair * 256 + r)
      else if first && g.soft.contains k then s.ras 1 0 core (pair * 256 + r)
      else s) s) s

/-- Checks 2 to 7 of R92 and the register words read (R118): the members that raise a cause.  Where both causes of check 7 arise, the spec gives no
order: the members with an invalid source latch trap, and the others re-issue the slot and then meet the flag (log 18). -/
def slotCauses (e : Env) : List (Nat × Cause) :=
  let s := e.s0
  let ms := e.grp.members
  let all (c : Nat) (v : DWord) : List (Nat × Cause) := ms.map fun t => (t, c, v)
  let word := e.body.word e.op
  let t0 := s.th (ms.headD 0)
  let regs := (s.gridOf (ms.headD 0)).regs
  if !e.grp.clauseOk e.op then all cIllClause e.grp.hdr
  else if !e.body.encOk e.op || e.badTile then all cIllEnc word
  else match (e.body.badOpnd regs e.op).or (e.badFrag regs) with
    | some (fld, o) => all cIllOpnd (.ofNat 64 (o.code + 256 * fld))
    | none =>
      if t0.lvl.num < e.body.level e.op then all cPriv word
      else
        let guardBad := ms.filterMap fun tid => ((s.th tid).badLatch (match e.body.guard with
          | .on _ o => [(.src1, o)] | .always => [])).map fun k => (tid, cIllLatch, (BitVec.ofNat 64 k : DWord))
        if !guardBad.isEmpty then guardBad
        else
          let srcBad := e.active.filterMap fun tid => ((s.th tid).badLatch (e.body.sources e.op)).map fun k =>
            (tid, cIllLatch, (BitVec.ofNat 64 k : DWord))
          let flagBad := if opCounts e.op && (hdrFlag e.grp.hdr e.body.fs).isNone then
              e.active.map fun tid => (tid, cIllClause, e.grp.hdr) else []
          if !srcBad.isEmpty then srcBad
          else if !flagBad.isEmpty then flagBad
          else eccTraps s e.active e.readRegs

/-! ### One slot -/

/-- What one member's step comes to. -/
inductive Lane where
  /-- Performed; the thread goes on. -/
  | done (s : State)
  /-- A trap at the slot. -/
  | trap (c : Cause)
  /-- PAGE_FATAL, with the record that is written (R252, R258). -/
  | fatal (r : FRec)
  /-- A replayable absent translation (R258), with the record. -/
  | page (r : FRec)
  /-- The condition of a blocking slot is false (R102). -/
  | block (s : State) (w : Wait)
  /-- A transfer of control. -/
  | jump (s : State) (pc : DWord)
  /-- Performed; the thread leaves the group, its state written by the step. -/
  | leave (s : State)
  /-- The slot stalls its group without blocking its threads. -/
  | stall
  /-- The slot waits for a Migrating page (R264), by its record. -/
  | wait (key : Nat)
  /-- The slot stalls its group with what the step did. -/
  | hold (s : State)

/-- The steps of the members, taken together. -/
structure Acc where
  s : State
  traps : List (Nat × Cause) := []
  recs : List (Nat × FRec) := []
  pages : List (Nat × FRec) := []
  left : List Nat := []
  /-- Members that left with their state written by the step. -/
  gone : List Nat := []
  stall : Bool := false
  /-- The Migrating pages that the slot waits for. -/
  late : List Nat := []
  hold : Bool := false

/-- The members' steps in ascending lane order (R211); a member that raises a cause changes nothing. -/
def runLanes (pc : DWord) (act : Nat → State → Lane) : List Nat → Acc → Acc
  | [], a => a
  | tid :: ts, a =>
    runLanes pc act ts (match act tid a.s with
      | .done s => { a with s }
      | .trap c => { a with traps := a.traps ++ [(tid, c)] }
      | .fatal r => { a with traps := a.traps ++ [(tid, cPageFatal, BitVec.ofNat 64 r.va)], recs := a.recs ++ [(tid, r)] }
      | .page r => { a with pages := a.pages ++ [(tid, r)] }
      | .block s w => { a with s := s.modRes tid fun t => { t with st := .blocked, wait := w, pc }, left := a.left ++ [tid]
                               gone := a.gone ++ [tid] }
      | .jump s dest => { a with s := s.modRes tid fun t => { t with pc := dest }, left := a.left ++ [tid] }
      | .leave s => { a with s, left := a.left ++ [tid], gone := a.gone ++ [tid] }
      | .stall => { a with stall := true }
      | .wait k => { a with stall := true, late := a.late ++ [k] }
      | .hold s => { a with s, hold := true })

/-- A group without the members that leave it, and the transfers that they wait to start. -/
def Group.keep (stay : Nat → Bool) (g : Group) : Option Group :=
  let ms := g.members.filter stay
  if ms.isEmpty then none else some { g with members := ms, waitX := g.waitX.filter fun x => x.tid.any stay }

/-- The group ends on its core. -/
def State.endGroup (s : State) (core : Nat) : State := s.modCo core fun c => { c with grp := none }

/-- A slot traps (R106): it has no effect for any member; those that raised a cause take it, the others are Ready at the slot. -/
def State.slotTrap (s : State) (core : Nat) (g : Group) (traps : List (Nat × Cause)) : State :=
  let s := s.endGroup core
  let s := g.members.foldl (fun s tid => s.modRes tid fun t => { t with pc := g.pc, st := .ready }) s
  traps.foldl (fun s x => if s.resident x.1 then s.takeTrap x.1 x.2.1 x.2.2 g.pc else s) s

/-- The lane mask of threads. -/
def laneMask (ts : List Nat) : Nat := ts.foldl (fun m t => m ||| 2 ^ tidLane t) 0

/-- A slot, or a header that is not fetched yet, meets a replayable PAGE fault (R106, R258): every member is Fault-stalled where it stands, and a record is written, or waits for room in
the queue; when the queue's own pages fail, the fault becomes PAGE_FATAL (R259).  A slot that samplers count is counted once it ends in PAGE_FATAL (R402): by
`cnt` here, or at the fault's end. -/
def State.slotPage (s : State) (core : Nat) (g : Group) (pages : List (Nat × FRec)) (mem : Bool := false) (cnt : State → State := fun s => s) : State :=
  match pages with
  | [] => s
  | (tid, r) :: _ =>
    let cid := s.cidOf tid
    let r := { r with token := s.token, replay := true, lanes := laneMask g.members }
    match s.faultRec cid r with
    | (.lost, s) => (cnt s).slotTrap core g (pages.map fun p => (p.1, cPageFatal, BitVec.ofNat 64 p.2.va))
    | (res, s) =>
      let s := s.endGroup core
      let s := g.members.foldl (fun s t => s.modRes t fun x => { x with pc := if g.hdr = 0 then x.pc else g.pc, st := .stalled, token := some r.token }) s
      { s with
        token := (s.token + 1) % 2 ^ 32
        faults := s.faults ++ [{ token := r.token, cid, core, grp := g, absent := pages.map fun p => (p.1, p.2.va), rec' := r,
                                 written := res == .written, counts := mem }] }

/-- Register words whose two lanes the slot both wrote are no longer poisoned, nor in error (R118). -/
def State.clearPoison (s : State) (active : List Nat) (regs : List Nat) : State :=
  active.foldl (fun s tid =>
    if tidLane tid % 2 = 0 ∧ active.contains (tid + 1) then
      s.modGg (tidGk tid) fun g =>
        let hit (k : Nat) : Bool := k / 256 == tidLane tid / 2 && regs.contains (k % 256)
        { g with poison := g.poison.filter fun k => !hit k, latent := g.latent.filter fun k => !hit k, soft := g.soft.filter fun k => !hit k }
    else s) s

/-- The end of a slot for a member (R87): validity falls by one, and is 0 at the clause end; the PC moves on. -/
def Thr.endSlot (g : Group) (moved : Bool) (t : Thr) : Thr :=
  { t with
    latches := t.latches.map fun l => { l with valid := if g.last then 0 else l.valid - 1 }
    pc := if moved then t.pc else g.nextPc }

/-- The end of a slot that a latch sees when its thread goes on at a PC (R87). -/
def Latch.ended (next : DWord) (l : Latch) : Latch := { l with valid := if pcSlot next = 0 then 0 else l.valid - 1 }

/-- A thread that was Blocked at a slot has passed it (R102): Ready at the PC after it, the slot's end done. -/
def Thr.pass (next : DWord) (t : Thr) : Thr :=
  { t with latches := t.latches.map (·.ended next), pc := next, st := .ready, wait := .none }

/-- Members that the debugger lets run one slot halt again (R390): at the PC they have come to. -/
def State.stepHalt (s : State) (ms : List Nat) : List Nat × State :=
  let hs := ms.filter fun t => s.resident t && (s.th t).stepping && !(s.th t).inh && ((s.th t).st == .ready || (s.th t).st == .blocked)
  (hs, hs.foldl (fun s t => s.stopThread t 1 0) s)

/-- The end of a slot (R86, R87, R106): members that left keep the PC they were given; a blocked one stays at the slot; the others
go on; after the last slot the group ends. -/
def State.endSlot (s : State) (e : Env) (left gone : List Nat) : State :=
  let g := e.grp
  let s := s.clearPoison e.active (e.body.writes e.op)
  let s := g.members.foldl (fun s tid => s.modRes tid fun t =>
    if gone.contains tid then t else t.endSlot g (left.contains tid)) s
  let (hs, s) := s.stepHalt g.members
  let rest := g.members.filter fun t => !left.contains t && !hs.contains t
  if g.last || rest.isEmpty then s.endGroup e.core
  else s.modCo e.core fun c => { c with grp := some { g with slot := g.slot + 1, members := rest, replays := 0, waitX := [] } }

/-- The group in progress on the core whose turn it is. -/
def State.cur (s : State) : Option Group := (s.co s.turn).grp

/-- The slot that the core whose turn it is stands at, for a word. -/
def State.env (s : State) (g : Group) (op : Nat) (b : Body) : Env :=
  { core := s.turn, grp := g, op, body := b, active := g.members.filter fun t => (s.th t).guardOn b.guard, s0 := s }

/-- A flag counter of an active member stands at 63 (R79). -/
def Env.flagFull (e : Env) : Bool :=
  opCounts e.op && e.op != 0xC0 && match hdrFlag e.grp.hdr e.body.fs with
    | some k => e.active.any fun t => (e.s0.th t).flag k ≥ 63
    | none => false

/-- What the members' steps come to: a stall changes nothing, but that
a slot that waits for a Migrating page has arrived there (R264); a trap or a fault leaves the slot without effect, but that it is counted (R402). -/
def State.afterLanes (e : Env) (a : Acc) (cnt : Env → State → State := fun _ s => s) : State :=
  if !a.traps.isEmpty then
    (a.recs.foldl (fun s r => (s.faultRec (s.cidOf r.1) r.2).2) (cnt e e.s0)).slotTrap e.core e.grp a.traps
  else if !a.pages.isEmpty then (e.s0).slotPage e.core e.grp a.pages (opSampled e.op) (cnt e)
  else if a.stall then a.late.foldl (fun s k => s.lateAt k (.core e.core)) e.s0
  else if a.hold then a.s
  else a.s.endSlot e a.left a.gone

/-- One slot of a group: the checks of R92, then the members' steps, then what the slot does once for the group. -/
def State.runSlot (s : State) (g : Group) (op : Nat) (b : Body) (act : Env → Nat → State → Lane)
    (fin : Env → Acc → Acc := fun _ a => a) (cnt : Env → State → State := fun _ s => s) : State :=
  let e := s.env g op b
  match slotCauses e with
  | [] =>
    if e.flagFull then s
    else
      let s1 := s.markLatent e.core g.members e.active e.readRegs
      let e1 := { e with s0 := s1 }
      State.afterLanes e1 (fin e1 (runLanes g.pc (act e1) e.active { s := s1 })) cnt
  | cs => (cnt e s).slotTrap e.core g cs

/-- The meaning of a core word: one slot of the group in progress on the core whose turn it is. -/
def runWord (i : Instr) (act : Env → Nat → State → Lane) (s : State) (fin : Env → Acc → Acc := fun _ a => a)
    (cnt : Env → State → State := fun _ s => s) : Host.Outcome State Fault Refusal :=
  match s.cur, i.core with
  | some g, some (op, b) => .next (s.runSlot g op b act fin cnt)
  | _, _ => .fault .noGroup

/-! ### Register-only words -/

/-- The hold of a V3 word (R86): copies an operand as read, or the 32-bit result.  The latch gets validity 3, which the end of the
slot lowers to 2. -/
def Thr.hold (old t : Thr) (h : Hold) (a b c : Opnd) (r : Word) : Thr :=
  match h with
  | .none => t
  | .keep k src =>
    let v := match src with | .a => old.val a | .b => old.val b | .c => old.val c | .r => r
    t.setLatch k.val { val := v, valid := 3 }

/-- A register-only step of one thread: the words of its result, written to D, and the hold. -/
def pureStep (d a b c : Opnd) (h : Hold) (res : Env → Nat → Thr → List Word) (e : Env) (tid : Nat) (s : State) : Lane :=
  let old := e.s0.th tid
  let ws := res e tid old
  .done (s.setTh tid (Thr.hold old ((s.th tid).write d ws) h a b c (ws.headD 0)))

/-- A V3 word that only computes: `res` gives the words of D from the thread's registers. -/
def runV3 (i : Instr) (f : V3) (res : Env → Nat → Thr → List Word) (s : State) : Host.Outcome State Fault Refusal :=
  runWord i (pureStep f.d f.a f.b f.c f.h res) s

/-- A word without hold fields that only computes. -/
def runReg (i : Instr) (d : Opnd) (res : Env → Nat → Thr → List Word) (s : State) : Host.Outcome State Fault Refusal :=
  runWord i (pureStep d .vz .vz .vz .none res) s

end Sys2Proof.Machine
end

