-- ==== Sys2Proof/Machine/Operands.lean ====
section
/-!
DEFINITION. The typed values of operands and results: integers of every width (R125, R137), and the forms of a result (R84, R125).
-/
namespace Sys2Proof.Machine

/-- The width in registers' bits of an integer operation of a type (R137). -/
def opW (t : Ty) : Nat := if t.wide then 64 else 32

/-- An operand of a type, as the bits read (R84). -/
def Thr.nat (th : Thr) (t : Ty) (o : Opnd) : Nat := if t.wide then (th.val64 o).toNat else (th.val o).toNat

/-- An operand read as an integer of its type (R137). -/
def Thr.int (th : Thr) (t : Ty) (o : Opnd) : Int :=
  if t.signed then sextNat (opW t) (th.nat t o) else (th.nat t o : Int)

/-- The words of a result of a type: `Wr` of R137, x mod 2^W. -/
def outInt (t : Ty) (x : Int) : List Word :=
  if t.wide then words64 (BitVec.ofInt 64 x) else [BitVec.ofInt 32 x]

/-- The least value of an integer type (R124). -/
def tyMin (t : Ty) : Int := if t.signed then -(2 ^ (t.bits - 1) : Int) else 0
/-- The greatest value of an integer type (R124). -/
def tyMax (t : Ty) : Int := if t.signed then (2 ^ (t.bits - 1) : Int) - 1 else (2 ^ t.bits : Int) - 1

/-- `Clamp` of R137. -/
def clampTy (t : Ty) (x : Int) : Int := if x < tyMin t then tyMin t else if x > tyMax t then tyMax t else x

/-- A result that wraps, or saturates when `sat` (R141). -/
def outSat (t : Ty) (sat : Bool) (x : Int) : List Word := outInt t (if sat then clampTy t x else x)

/-- An immediate of format I24, sign-extended to the width and read per the type (R80, R146). -/
def immInt (t : Ty) (imm : BitVec 24) : Int :=
  if t.signed then imm.toInt else (wrapN (opW t) imm.toInt : Int)

/-- One word that is 0 or 1. -/
def outBool (b : Bool) : List Word := [if b then 1 else 0]

end Sys2Proof.Machine
end

