-- ==== Sys2Proof/Machine/Flags.lean ====
section
/-!
DEFINITION. The computations that other instructions test: compare conditions (R146, R165), carry and borrow (R142), and the
completion flags' counting (R79).
-/
namespace Sys2Proof.Machine

/-- The condition of `ICMP` (R146), by its MOD code. -/
def intCond (cc : Nat) (a b : Int) : Bool :=
  match cc with
  | 0 => a == b
  | 1 => a != b
  | 2 => decide (a < b)
  | 3 => decide (a ≤ b)
  | 4 => decide (a > b)
  | _ => decide (a ≥ b)

/-- The condition code that `ICMPI` holds in two bits (R146). -/
def icmpiCond (m : Nat) : Nat := if m = 3 then 5 else m

/-- Sum and carry of `IADDC` (R142). -/
def addCarry (a b c : Word) : Word × Word :=
  let x := a.toNat + b.toNat + c.toNat % 2
  (.ofNat 32 x, .ofNat 32 (x / 2 ^ 32))

/-- Difference and borrow of `ISUBB` (R142). -/
def subBorrow (a b c : Word) : Word × Word :=
  let x : Int := (a.toNat : Int) - b.toNat - (c.toNat % 2 : Nat)
  (.ofInt 32 x, if x < 0 then 1 else 0)

/-- A counting instruction issues (R79): the flag it selects rises by one. -/
def Thr.count (t : Thr) (k : Nat) : Thr := t.setFlag k (t.flag k + 1)

/-- A pending result is written (R79): the flag falls by one. -/
def Thr.uncount (t : Thr) (k : Nat) : Thr := t.setFlag k (t.flag k - 1)

end Sys2Proof.Machine
end

