-- ==== Sys2Proof/Machine/Fp.lean ====
section
/-!
DEFINITION. Floating-point values: formats (R119 to R121), exact values, rounding (R126, R127), exact sums (R133), and the exact or
nearly exact values of the functions of R170 to R172.
-/
namespace Sys2Proof.Machine

/-- A floating-point format (R119): exponent bits, fraction bits, bias; `fn` marks E4M3, which has no infinities. -/
structure FFmt where
  eb : Nat
  fb : Nat
  bias : Int
  fn : Bool := false
  deriving DecidableEq, Repr

/-- The element format of a type (R119); a packed type has that of its elements. -/
def ffmt : Ty → FFmt
  | .f64 => { eb := 11, fb := 52, bias := 1023 }
  | .f16 | .h2 => { eb := 5, fb := 10, bias := 15 }
  | .bf16 | .b2 => { eb := 8, fb := 7, bias := 127 }
  | .e4m3 => { eb := 4, fb := 3, bias := 7, fn := true }
  | .e5m2 => { eb := 5, fb := 2, bias := 15 }
  | _ => { eb := 8, fb := 23, bias := 127 }

/-- A floating-point value: NaN, an infinity, or ± m × 2^e (R119). -/
inductive FV where
  | nan
  | inf (neg : Bool)
  | fin (neg : Bool) (m : Nat) (e : Int)
  deriving DecidableEq, Repr

/-- The width of a format. -/
def FFmt.bits (f : FFmt) : Nat := 1 + f.eb + f.fb

/-- The exponent of the least bit of a subnormal. -/
def FFmt.emin (f : FFmt) : Int := 1 - f.bias - f.fb

/-- The value that bits encode (R119, R120); upper bits are ignored (R125). -/
def FFmt.val (f : FFmt) (x : Nat) : FV :=
  let neg := x.testBit (f.eb + f.fb)
  let e := bitsOf x f.fb f.eb
  let m := x % 2 ^ f.fb
  if e = 2 ^ f.eb - 1 ∧ ¬f.fn then (if m = 0 then .inf neg else .nan)
  else if e = 2 ^ f.eb - 1 ∧ m = 2 ^ f.fb - 1 then .nan
  else if e = 0 then .fin neg m f.emin
  else .fin neg (2 ^ f.fb + m) (f.emin + e - 1)

/-- The canonical NaN (R121). -/
def FFmt.cnan (f : FFmt) : Nat :=
  if f.fn then 2 ^ (f.eb + f.fb) - 1 else (2 ^ f.eb - 1) * 2 ^ f.fb + 2 ^ (f.fb - 1)

/-- The sign bit in place. -/
def FFmt.sgn (f : FFmt) (neg : Bool) : Nat := if neg then 2 ^ (f.eb + f.fb) else 0

/-- An infinity; NaN where the format has none (R127, R128). -/
def FFmt.infBits (f : FFmt) (neg : Bool) : Nat :=
  if f.fn then f.cnan else f.sgn neg + (2 ^ f.eb - 1) * 2 ^ f.fb

/-- The largest finite value (R120). -/
def FFmt.maxBits (f : FFmt) (neg : Bool) : Nat :=
  f.sgn neg + (if f.fn then 2 ^ (f.eb + f.fb) - 2 else (2 ^ f.eb - 1) * 2 ^ f.fb - 1)

/-- The rounding modes (R126). -/
inductive Rm where
  | rne | rtz | rdn | rup | rna
  deriving DecidableEq, Repr

/-- The mode of `RM` (R126). -/
def rmOf (n : Nat) : Rm :=
  match n % 8 with
  | 0 => .rne | 1 => .rtz | 2 => .rdn | 3 => .rup | _ => .rna

/-- The mode rounds away from zero: sign, quotient, remainder of the division by `d`. -/
def Rm.up (r : Rm) (neg : Bool) (n rem d : Nat) : Bool :=
  match r with
  | .rne => decide (2 * rem > d) || (2 * rem == d && n % 2 == 1)
  | .rtz => false
  | .rdn => neg && rem != 0
  | .rup => !neg && rem != 0
  | .rna => decide (2 * rem ≥ d)

/-- Overflow (R127), or the largest finite value under `SAT` (R128). -/
def FFmt.overflow (f : FFmt) (r : Rm) (sat neg : Bool) : Nat :=
  if sat then f.maxBits neg
  else match r with
    | .rne | .rna => f.infBits neg
    | .rtz => f.maxBits neg
    | .rdn => if neg then f.infBits neg else f.maxBits neg
    | .rup => if neg then f.maxBits neg else f.infBits neg

/-- ± m × 2^e, with m not 0, rounded once (R126, R127, R123). -/
def FFmt.round (f : FFmt) (r : Rm) (sat neg : Bool) (m : Nat) (e : Int) : Nat :=
  let len : Int := (Nat.log2 m + 1 : Nat)
  let q : Int := max (e + len - (f.fb + 1)) f.emin
  if e + len > 20000 then f.overflow r sat neg
  else
    let (n, rem, d) : Nat × Nat × Nat :=
      if q ≤ e then (m * 2 ^ (e - q).toNat, 0, 1)
      else if q - e > len + 1 then (0, 1, 4)
      else (m / 2 ^ (q - e).toNat, m % 2 ^ (q - e).toNat, 2 ^ (q - e).toNat)
    let n := if r.up neg n rem d then n + 1 else n
    if n < 2 ^ f.fb then f.sgn neg + n
    else
      let (n, q) : Nat × Int := if n = 2 ^ (f.fb + 1) then (2 ^ f.fb, q + 1) else (n, q)
      let ef : Nat := (q - f.emin + 1).toNat
      let x := ef * 2 ^ f.fb + (n - 2 ^ f.fb)
      if x > f.maxBits false then f.overflow r sat neg else f.sgn neg + x

/-- A value rounded to a format: zero keeps its sign, NaN is canonical. -/
def FFmt.ofFV (f : FFmt) (r : Rm) (sat : Bool) : FV → Nat
  | .nan => f.cnan
  | .inf neg => if sat then f.maxBits neg else f.infBits neg
  | .fin neg m e => if m = 0 then f.sgn neg else f.round r sat neg m e

/-! ### Exact arithmetic -/

/-- The negation. -/
def FV.neg : FV → FV
  | .nan => .nan
  | .inf n => .inf (!n)
  | .fin n m e => .fin (!n) m e

/-- A product, exact (R133). -/
def FV.mul : FV → FV → FV
  | .nan, _ | _, .nan => .nan
  | .inf a, .inf b => .inf (a != b)
  | .inf a, .fin b m _ | .fin b m _, .inf a => if m = 0 then .nan else .inf (a != b)
  | .fin a m e, .fin b n k => .fin (a != b) (m * n) (e + k)

/-- A term as an integer in units of 2^q. -/
def FV.units (q : Int) : FV → Int
  | .fin neg m e => let x : Int := ((m * 2 ^ (e - q).toNat : Nat) : Int); if neg then -x else x
  | _ => 0

/-- The least exponent among the nonzero terms. -/
def minExp : List FV → Option Int
  | [] => none
  | .fin _ m e :: ts => if m = 0 then minExp ts else some (match minExp ts with | some k => min e k | none => e)
  | _ :: ts => minExp ts

/-- The exact sum of values (R133); `zneg` is the sign of a zero that is not the sum of −0 alone. -/
def exactSum (zneg : Bool) (ts : List FV) : FV :=
  if ts.any (· == .nan) ∨ (ts.any (· == .inf false) ∧ ts.any (· == .inf true)) then .nan
  else if ts.any (· == .inf false) then .inf false
  else if ts.any (· == .inf true) then .inf true
  else
    let q := (minExp ts).getD 0
    let x := (ts.map (FV.units q)).sum
    if x = 0 then
      .fin (if ts.all (fun t => match t with | .fin n m _ => n && m == 0 | _ => false) then !ts.isEmpty else zneg) 0 0
    else .fin (decide (x < 0)) x.natAbs q

/-- The sum of `FADD` and `FFMA`, with the zero sign of R163. -/
def addSum (r : Rm) (ts : List FV) : FV := exactSum (r == .rdn) ts

/-- −1, 0 or 1 as a finite or infinite value lies below, at or above another. -/
def FV.cmp (a b : FV) : Int :=
  match a, b with
  | .inf x, .inf y => if x = y then 0 else if x then -1 else 1
  | .inf x, _ => if x then -1 else 1
  | _, .inf y => if y then 1 else -1
  | a, b =>
    let q := (minExp [a, b]).getD 0
    (a.units q - b.units q).sign

/-- A comparison for selection, where −0 is less than +0 (R164). -/
def FV.less (a b : FV) : Bool :=
  match FV.cmp a b with
  | 0 => (match a, b with | .fin x 0 _, .fin y 0 _ => x && !y | _, _ => false)
  | x => decide (x < 0)

/-- `FMIN` and `FMAX` (R164) on bits; `prop` makes a NaN operand the result, as `FMINM` and `FMAXM` do. -/
def FFmt.select (f : FFmt) (mx prop : Bool) (x y : Nat) : Nat :=
  let a := f.val x
  let b := f.val y
  let x := x % 2 ^ f.bits
  let y := y % 2 ^ f.bits
  if a = .nan ∧ b = .nan then f.cnan
  else if a = .nan then (if prop then f.cnan else y)
  else if b = .nan then (if prop then f.cnan else x)
  else if mx then (if a.less b then y else x) else (if b.less a then y else x)

/-- An exact value with more bits than any format rounds to, whose last bit stands for a nonzero remainder. -/
def jam (neg : Bool) (m : Nat) (inexact : Bool) (e : Int) : FV := .fin neg (2 * m + (if inexact then 1 else 0)) (e - 1)

/-- The integer square root below `2^(k+1)`. -/
def isqrtFrom (n : Nat) : Nat → Nat → Nat
  | 0, acc => if (acc + 1) * (acc + 1) ≤ n then acc + 1 else acc
  | k + 1, acc => isqrtFrom n k (if (acc + 2 ^ (k + 1)) * (acc + 2 ^ (k + 1)) ≤ n then acc + 2 ^ (k + 1) else acc)

/-- The integer square root. -/
def isqrt (n : Nat) : Nat := isqrtFrom n (Nat.log2 n / 2 + 1) 0

/-- The quotient of finite values, the divisor not 0. -/
def divFin (neg : Bool) (m : Nat) (e : Int) (n : Nat) (k : Int) : FV :=
  let s := 70 + Nat.log2 n
  let x := m * 2 ^ s
  jam neg (x / n) (x % n != 0) (e - k - s)

/-- The square root of m × 2^e. -/
def sqrtFin (m : Nat) (e : Int) : FV :=
  let (m, e) : Nat × Int := if e % 2 = 0 then (m, e) else (2 * m, e - 1)
  let x := m * 2 ^ 140
  let r := isqrt x
  jam false r (r * r != x) (e / 2 - 70)

/-- The reciprocal square root of m × 2^e. -/
def rsqrtFin (m : Nat) (e : Int) : FV :=
  let (m, e) : Nat × Int := if e % 2 = 0 then (m, e) else (2 * m, e - 1)
  let k := 70 + Nat.log2 m
  let r := isqrt (2 ^ (2 * k) / m)
  jam false r (r * r * m != 2 ^ (2 * k)) (-(e / 2) - k)

/-- `FDIV` (R170). -/
def FV.div : FV → FV → FV
  | .nan, _ | _, .nan => .nan
  | .inf _, .inf _ => .nan
  | .inf a, .fin b _ _ => .inf (a != b)
  | .fin a _ _, .inf b => .fin (a != b) 0 0
  | .fin a m e, .fin b n k =>
    if n = 0 then (if m = 0 then .nan else .inf (a != b))
    else if m = 0 then .fin (a != b) 0 0 else divFin (a != b) m e n k

/-- `FSQRT` (R170). -/
def FV.sqrt : FV → FV
  | .nan => .nan
  | .inf neg => if neg then .nan else .inf false
  | .fin neg m e => if m = 0 then .fin neg 0 0 else if neg then .nan else sqrtFin m e

/-- `FRCP` (R170). -/
def FV.rcp : FV → FV
  | .nan => .nan
  | .inf neg => .fin neg 0 0
  | .fin neg m e => if m = 0 then .inf neg else divFin neg 1 0 m e

/-- `FRSQ` (R170). -/
def FV.rsq : FV → FV
  | .nan => .nan
  | .inf neg => if neg then .nan else .fin false 0 0
  | .fin neg m e => if m = 0 then .inf neg else if neg then .nan else rsqrtFin m e

/-- The integer that a mode selects from ± m × 2^e (R167, R175): its magnitude. -/
def Rm.toInt (r : Rm) (neg : Bool) (m : Nat) (e : Int) : Nat :=
  if 0 ≤ e then m * 2 ^ e.toNat
  else if -e > (Nat.log2 m + 3 : Nat) then (if m ≠ 0 ∧ r.up neg 0 1 4 then 1 else 0)
  else
    let d := 2 ^ (-e).toNat
    let n := m / d
    if r.up neg n (m % d) d then n + 1 else n

/-- `FRND` (R167). -/
def FV.rnd (r : Rm) : FV → FV
  | .fin neg m e => if 0 ≤ e then .fin neg m e else .fin neg (r.toInt neg m e) 0
  | v => v

/-- ⌊log₂ |a|⌋ of a finite nonzero value (R169). -/
def floorLog2 (m : Nat) (e : Int) : Int := e + (Nat.log2 m : Nat)

/-! ### Transcendental functions (R171, R172), on 340 fraction bits (log 19) -/

/-- Fraction bits of the evaluation. -/
def fxP : Nat := 340
/-- ⌊ln 2 × 2^340⌋. -/
def fxLn2 : Nat := 1552472753214506609814386706714515997639500943322908694723277334626013631332104235060901432890736597333
/-- ⌊π × 2^340⌋. -/
def fxPi : Nat := 7036365627942155232378451105383714118229498621515162138157626346021022039982006998243213719805928138054
/-- ⌊2^340 ÷ ln 2⌋. -/
def fxLog2e : Nat := 3231268632397048050285194455912483530120604959188080231085610272067897583579003293357694054285468539685

/-- Σ z^k ÷ k! by its terms, from term k. -/
def expSeries (z : Nat) : Nat → Nat → Nat → Nat → Nat
  | 0, _, _, acc => acc
  | fuel + 1, k, term, acc => expSeries z fuel (k + 1) (term * z / 2 ^ fxP / (k + 1)) (acc + term)

/-- 2^r for a fraction r of 2^340. -/
def fxExp2 (r : Nat) : Nat := expSeries (r * fxLn2 / 2 ^ fxP) 80 0 (2 ^ fxP) 0

/-- An alternating series of a sine or cosine: terms divided by (k+1)(k+2), the sums of even and odd terms. -/
def trigSeries (z2 : Nat) : Nat → Nat → Nat → Nat → Nat → Nat
  | 0, _, _, pos, neg => pos - neg
  | fuel + 1, k, term, pos, neg =>
    trigSeries z2 fuel (k + 2) (term * z2 / 2 ^ fxP / ((k + 1) * (k + 2)))
      (if k / 2 % 2 = 0 then pos + term else pos) (if k / 2 % 2 = 0 then neg else neg + term)

/-- sin(π y) for y at most 1/4, in units of 2^-340. -/
def fxSin (y : Nat) : Nat :=
  let z := y * fxPi / 2 ^ fxP
  trigSeries (z * z / 2 ^ fxP) 40 1 z 0 0

/-- cos(π y) for y at most 1/4. -/
def fxCos (y : Nat) : Nat :=
  let z := y * fxPi / 2 ^ fxP
  trigSeries (z * z / 2 ^ fxP) 40 0 (2 ^ fxP) 0 0

/-- Σ t^(2k+1) ÷ (2k+1), the hyperbolic arctangent of t. -/
def atanhSeries (t2 : Nat) : Nat → Nat → Nat → Nat → Nat
  | 0, _, _, acc => acc
  | fuel + 1, k, term, acc => atanhSeries t2 fuel (k + 2) (term * t2 / 2 ^ fxP) (acc + term / k)

/-- log₂ of 1 + x for a fraction x. -/
def fxLog2 (x : Nat) : Nat :=
  let t := x * 2 ^ fxP / (2 ^ (fxP + 1) + x)
  2 * atanhSeries (t * t / 2 ^ fxP) 120 1 t 0 * fxLog2e / 2 ^ fxP

/-- m × 2^e as a number of units of 2^-340, cut below. -/
def fxOf (m : Nat) (e : Int) : Nat :=
  let s := e + fxP
  if 0 ≤ s then m * 2 ^ s.toNat else m / 2 ^ (-s).toNat

/-- `FEXP2` (R171, R172). -/
def FV.exp2 : FV → FV
  | .nan => .nan
  | .inf neg => if neg then .fin false 0 0 else .inf false
  | .fin neg m e =>
    if m = 0 then .fin false 1 0
    else if e + (Nat.log2 m : Nat) > 12 then (if neg then .fin false 1 (-100000) else .fin false 1 100000)
    else
      let y := fxOf m e
      let exact := y % 2 ^ fxP = 0 ∧ (0 ≤ e ∨ m % 2 ^ (-e).toNat = 0)
      let n : Int := (y / 2 ^ fxP : Nat)
      if exact then .fin false 1 (if neg then -n else n)
      else
        let r := y % 2 ^ fxP
        if neg then jam false (fxExp2 (2 ^ fxP - r)) true (-n - 1 - fxP) else jam false (fxExp2 r) true (n - fxP)

/-- `FLOG2` (R171, R172). -/
def FV.log2 : FV → FV
  | .nan => .nan
  | .inf neg => if neg then .nan else .inf false
  | .fin neg m e =>
    if m = 0 then .inf true
    else if neg then .nan
    else
      let k := Nat.log2 m
      let n : Int := e + (k : Nat)
      let x := (m - 2 ^ k) * 2 ^ fxP / 2 ^ k
      if x = 0 then .fin (decide (n < 0)) n.natAbs 0
      else
        let v : Int := n * 2 ^ fxP + (fxLog2 x : Nat)
        if v < 0 then jam true ((-v).toNat - 1) true (-(fxP : Int)) else jam false v.toNat true (-(fxP : Int))

/-- |a| modulo 2, in units of 2^-340, for a finite value. -/
def mod2 (m : Nat) (e : Int) : Nat := if 1 ≤ e then 0 else fxOf m e % 2 ^ (fxP + 1)

/-- The value is an integer. -/
def isIntFin (m : Nat) (e : Int) : Bool := decide (0 ≤ e) || m % 2 ^ (-e).toNat == 0

/-- `FSINP` (R171, R172). -/
def FV.sinp : FV → FV
  | .nan | .inf _ => .nan
  | .fin neg m e =>
    if isIntFin m e then .fin neg 0 0
    else
      let y := mod2 m e
      let one := 2 ^ fxP
      let (s, y) : Bool × Nat := if one ≤ y then (!neg, y - one) else (neg, y)
      let y := if one < 2 * y then one - y else y
      if 2 * y = one then .fin s 1 0
      else if one < 4 * y then jam s (fxCos (one / 2 - y)) true (-(fxP : Int)) else jam s (fxSin y) true (-(fxP : Int))

/-- `FCOSP` (R171, R172). -/
def FV.cosp : FV → FV
  | .nan | .inf _ => .nan
  | .fin _ m e =>
    let y := mod2 m e
    let one := 2 ^ fxP
    if isIntFin m e then .fin (y == one) 1 0
    else
      let y := if one < y then 2 * one - y else y
      let (s, y) : Bool × Nat := if one < 2 * y then (true, one - y) else (false, y)
      if 2 * y = one then .fin false 0 0
      else if one < 4 * y then jam s (fxSin (one / 2 - y)) true (-(fxP : Int)) else jam s (fxCos y) true (-(fxP : Int))

/-- `FTANH` (R171, R172). -/
def FV.tanh : FV → FV
  | .nan => .nan
  | .inf neg => .fin neg 1 0
  | .fin neg m e =>
    if m = 0 then .fin neg 0 0
    else if e + (Nat.log2 m : Nat) > 6 then jam neg (2 ^ fxP - 1) true (-(fxP : Int))
    else
      let y := 2 * fxOf m e * fxLog2e / 2 ^ fxP
      let n := y / 2 ^ fxP
      let r := y % 2 ^ fxP
      let p := (if r = 0 then 2 ^ fxP else fxExp2 (2 ^ fxP - r) / 2) / 2 ^ n
      jam neg ((2 ^ fxP - p) * 2 ^ fxP / (2 ^ fxP + p)) true (-(fxP : Int))

end Sys2Proof.Machine
end

