-- ==== Sys2Proof/Machine/Floating.lean ====
section
/-!
DEFINITION. Floating-point and conversion instructions (R158 to R178).
-/
namespace Sys2Proof.Machine

/-- The bits of a result of a floating type, in registers (R125). -/
def outFp (t : Ty) (x : Nat) : List Word := if t.wide then words64 (.ofNat 64 x) else [.ofNat 32 x]

/-- One operand, each element of a packed type on its own (R125). -/
def fpMap1 (t : Ty) (g : Nat → Nat) (x : Nat) : Nat :=
  if t.packed then g (x % 2 ^ 16) + 2 ^ 16 * g (x / 2 ^ 16) else g x

/-- Two operands, elementwise. -/
def fpMap2 (t : Ty) (g : Nat → Nat → Nat) (x y : Nat) : Nat :=
  if t.packed then g (x % 2 ^ 16) (y % 2 ^ 16) + 2 ^ 16 * g (x / 2 ^ 16) (y / 2 ^ 16) else g x y

/-- Three operands, elementwise. -/
def fpMap3 (t : Ty) (g : Nat → Nat → Nat → Nat) (x y z : Nat) : Nat :=
  if t.packed then g (x % 2 ^ 16) (y % 2 ^ 16) (z % 2 ^ 16) + 2 ^ 16 * g (x / 2 ^ 16) (y / 2 ^ 16) (z / 2 ^ 16) else g x y z

/-- `FADD` of bits of a format (R162, R163). -/
def FFmt.add (f : FFmt) (r : Rm) (x y : Nat) : Nat := f.ofFV r false (addSum r [f.val x, f.val y])
/-- `FSUB` of bits. -/
def FFmt.sub (f : FFmt) (r : Rm) (x y : Nat) : Nat := f.ofFV r false (addSum r [f.val x, (f.val y).neg])
/-- `FMUL` of bits. -/
def FFmt.mul (f : FFmt) (r : Rm) (x y : Nat) : Nat := f.ofFV r false ((f.val x).mul (f.val y))
/-- `FFMA` of bits: one rounding (R162). -/
def FFmt.fma (f : FFmt) (r : Rm) (x y z : Nat) : Nat := f.ofFV r false (addSum r [(f.val x).mul (f.val y), f.val z])
/-- A function of one value, rounded once. -/
def FFmt.fun1 (f : FFmt) (r : Rm) (g : FV → FV) (x : Nat) : Nat := f.ofFV r false (g (f.val x))

/-- A two-operand V3 word on elements. -/
def fpOp2 (f : V3) (g : FFmt → Nat → Nat → Nat) (_ : Env) (_ : Nat) (t : Thr) : List Word :=
  outFp f.t (fpMap2 f.t (g (ffmt f.t)) (t.nat f.t f.a) (t.nat f.t f.b))

/-- A one-operand V3 word on elements. -/
def fpOp1 (f : V3) (g : FFmt → Nat → Nat) (_ : Env) (_ : Nat) (t : Thr) : List Word :=
  outFp f.t (fpMap1 f.t (g (ffmt f.t)) (t.nat f.t f.a))

/-- The conditions of `FCMP` (R165). -/
def fpCond (cc : Nat) (a b : FV) : Bool :=
  let un := a == .nan || b == .nan
  let c := FV.cmp a b
  match cc with
  | 0 => !un && c == 0
  | 1 => un || c != 0
  | 2 => !un && decide (c < 0)
  | 3 => !un && decide (c ≤ 0)
  | 4 => !un && decide (c > 0)
  | 5 => !un && decide (c ≥ 0)
  | 6 => un
  | 7 => !un
  | 8 => un || decide (c < 0)
  | 9 => un || decide (c ≤ 0)
  | 10 => un || decide (c > 0)
  | 11 => un || decide (c ≥ 0)
  | 12 => un || c == 0
  | _ => !un && c != 0

/-- The class mask of `FCLASS` (R166). -/
def FFmt.cls (f : FFmt) (x : Nat) : Nat :=
  match f.val x with
  | .inf true => 1
  | .inf false => 2 ^ 7
  | .nan => if f.fn ∨ f.fb = 2 then 2 ^ 9 else if x.testBit (f.fb - 1) then 2 ^ 9 else 2 ^ 8
  | .fin neg m _ =>
    if m = 0 then (if neg then 2 ^ 3 else 2 ^ 4)
    else if m < 2 ^ f.fb then (if neg then 2 ^ 2 else 2 ^ 5) else (if neg then 2 ^ 1 else 2 ^ 6)

/-- The exponent of `FEXPX` (R169). -/
def expx : FV → Int
  | .nan => 0x80000001
  | .inf _ => 0x7FFFFFFF
  | .fin _ m e => if m = 0 then 0x80000000 else floorLog2 m e

/-- `FSCALE` of a value (R168). -/
def FV.scale (n : Int) : FV → FV
  | .fin neg m e => .fin neg m (e + n)
  | v => v

/-! ### Conversions -/

/-- A floating conversion whose every value is exact in the destination (R175): its infinities stay (log 20). -/
def cvtWider (t ts : Ty) : Bool :=
  match ts with
  | .f16 | .bf16 => t == .f32 || t == .f64
  | .f32 => t == .f64
  | .e4m3 | .e5m2 => t == .f16 || t == .bf16 || t == .f32 || t == .f64
  | _ => false

/-- An integer put into the range of a type (R128): wrapped, or the nearest bound. -/
def cvtInt (t : Ty) (sat : Bool) (x : Int) : Int := if sat then clampTy t x else x

/-- A floating value to an integer type (R128, R175). -/
def cvtFpInt (t : Ty) (r : Rm) (sat : Bool) (v : FV) : Int :=
  let ind : Int := if t.signed then tyMin t else tyMax t
  match v with
  | .nan => if sat then 0 else ind
  | .inf neg => if sat then (if neg then tyMin t else tyMax t) else ind
  | .fin neg m e =>
    let x : Int := if neg then -(r.toInt neg m e : Int) else (r.toInt neg m e : Int)
    if tyMin t ≤ x ∧ x ≤ tyMax t then x else if sat then clampTy t x else ind

/-- A source read as an integer of its type (R125). -/
def srcInt (ts : Ty) (x : Nat) : Int := if ts.signed then sextNat ts.bits x else (x % 2 ^ ts.bits : Nat)

/-- One element converted (R175): the result as a number of the destination's width, sign-extended by `outCvt`. -/
def cvtVal (t ts : Ty) (r : Rm) (sat : Bool) (x : Nat) : Int :=
  if ts.floating then
    if t.floating then ((ffmt t).ofFV r (sat && !cvtWider t ts) ((ffmt ts).val x) : Nat)
    else cvtFpInt t r sat ((ffmt ts).val x)
  else
    let n := srcInt ts x
    if t.floating then ((ffmt t).ofFV r sat (.fin (decide (n < 0)) n.natAbs 0) : Nat) else cvtInt t sat n

/-- A converted value in registers (R125). -/
def outCvt (t : Ty) (x : Int) : List Word :=
  if t.wide then words64 (.ofInt 64 x)
  else if t.floating then [.ofInt 32 x]
  else [.ofInt 32 (if t.signed then sextNat t.bits (wrapN t.bits x) else (wrapN t.bits x : Nat))]

/-- The rounding mode and `SAT` of a conversion (R126). -/
def cvtMode (m : BitVec 4) : Rm × Bool := (rmOf m.toNat, m.getLsbD 3)

/-- Byte or half `i` of a word. -/
def elem (n x i : Nat) : Nat := bitsOf x (n * i) n

/-- The words of `CVTQ` (R177). -/
def cvtqWords (t ts : Ty) (a : Nat) : List Word :=
  let c (n i : Nat) : Nat := (cvtVal (if t.packed then t else .f32) ts .rne false (elem n a i)).toNat
  if ts.packed then [.ofNat 32 (c 16 0), .ofNat 32 (c 16 1)]
  else if t = .f32 then (upto 4).map fun i => .ofNat 32 (c 8 i)
  else [.ofNat 32 (c 8 0 + 2 ^ 16 * c 8 1), .ofNat 32 (c 8 2 + 2 ^ 16 * c 8 3)]

/-- The word of `CVTP` (R176). -/
def cvtpWord (t ts : Ty) (r : Rm) (sat : Bool) (a b : Nat) : Nat :=
  let c (x : Nat) : Nat := (cvtVal t ts r sat x).toNat
  if t.packed then c a + 2 ^ 16 * c b
  else if ts.packed then c (elem 16 a 0) + 2 ^ 8 * c (elem 16 a 1) + 2 ^ 16 * c (elem 16 b 0) + 2 ^ 24 * c (elem 16 b 1)
  else c a + 2 ^ 8 * c b

/-- An entry of a gang's codebook (R129): slot, code. -/
def Gang.entry (g : Gang) (slot code : Nat) : Half := Tbl.get 0 g.cb (16 * slot + code)

/-- `FADD` (R162, R163). -/
def execFadd (f : V3) (s : State) : Host.Outcome State Fault Refusal :=
  runV3 (.fadd f) f (fpOp2 f fun k => k.add (rmOf f.mod.toNat)) s

/-- `FSUB` (R162, R163). -/
def execFsub (f : V3) (s : State) : Host.Outcome State Fault Refusal :=
  runV3 (.fsub f) f (fpOp2 f fun k => k.sub (rmOf f.mod.toNat)) s

/-- `FMUL` (R162, R163). -/
def execFmul (f : V3) (s : State) : Host.Outcome State Fault Refusal :=
  runV3 (.fmul f) f (fpOp2 f fun k => k.mul (rmOf f.mod.toNat)) s

/-- `FFMA` (R162, R163). -/
def execFfma (f : V3) (s : State) : Host.Outcome State Fault Refusal :=
  runV3 (.ffma f) f (fun _ _ t => outFp f.t (fpMap3 f.t ((ffmt f.t).fma (rmOf f.mod.toNat)) (t.nat f.t f.a) (t.nat f.t f.b) (t.nat f.t f.c))) s

/-- `FMIN` (R164). -/
def execFmin (f : V3) (s : State) : Host.Outcome State Fault Refusal :=
  runV3 (.fmin f) f (fpOp2 f fun k => k.select false false) s

/-- `FMAX` (R164). -/
def execFmax (f : V3) (s : State) : Host.Outcome State Fault Refusal :=
  runV3 (.fmax f) f (fpOp2 f fun k => k.select true false) s

/-- `FMINM` (R164). -/
def execFminm (f : V3) (s : State) : Host.Outcome State Fault Refusal :=
  runV3 (.fminm f) f (fpOp2 f fun k => k.select false true) s

/-- `FMAXM` (R164). -/
def execFmaxm (f : V3) (s : State) : Host.Outcome State Fault Refusal :=
  runV3 (.fmaxm f) f (fpOp2 f fun k => k.select true true) s

/-- `FCMP` (R165): 0 or 1, and for a packed type one bit per element. -/
def execFcmp (f : V3) (s : State) : Host.Outcome State Fault Refusal :=
  runV3 (.fcmp f) f (fun _ _ t =>
    let c (x y : Nat) : Nat := if fpCond f.mod.toNat ((ffmt f.t).val x) ((ffmt f.t).val y) then 1 else 0
    let a := t.nat f.t f.a
    let b := t.nat f.t f.b
    [.ofNat 32 (if f.t.packed then c (elem 16 a 0) (elem 16 b 0) + 2 * c (elem 16 a 1) (elem 16 b 1) else c a b)]) s

/-- `FCLASS` (R166). -/
def execFclass (f : V3) (s : State) : Host.Outcome State Fault Refusal :=
  runV3 (.fclass f) f (fun _ _ t => [.ofNat 32 ((ffmt f.t).cls (t.nat f.t f.a))]) s

/-- `FRND` (R167). -/
def execFrnd (f : V3) (s : State) : Host.Outcome State Fault Refusal :=
  runV3 (.frnd f) f (fpOp1 f fun k => k.fun1 (rmOf f.mod.toNat) (FV.rnd (rmOf f.mod.toNat))) s

/-- `FSCALE` (R168). -/
def execFscale (f : V3) (s : State) : Host.Outcome State Fault Refusal :=
  runV3 (.fscale f) f (fun _ _ t => outFp f.t (fpMap1 f.t ((ffmt f.t).fun1 (rmOf f.mod.toNat) (FV.scale (t.val f.b).toInt)) (t.nat f.t f.a))) s

/-- `FEXPX` (R169). -/
def execFexpx (f : V3) (s : State) : Host.Outcome State Fault Refusal :=
  runV3 (.fexpx f) f (fun _ _ t => [.ofInt 32 (expx ((ffmt f.t).val (t.nat f.t f.a)))]) s

/-- `FDIV` (R170). -/
def execFdiv (f : V3) (s : State) : Host.Outcome State Fault Refusal :=
  runV3 (.fdiv f) f (fpOp2 f fun k x y => k.ofFV (rmOf f.mod.toNat) false ((k.val x).div (k.val y))) s

/-- `FSQRT` (R170). -/
def execFsqrt (f : V3) (s : State) : Host.Outcome State Fault Refusal :=
  runV3 (.fsqrt f) f (fpOp1 f fun k => k.fun1 (rmOf f.mod.toNat) FV.sqrt) s

/-- `FRCP` (R170). -/
def execFrcp (f : V3) (s : State) : Host.Outcome State Fault Refusal :=
  runV3 (.frcp f) f (fpOp1 f fun k => k.fun1 (rmOf f.mod.toNat) FV.rcp) s

/-- `FRSQ` (R170). -/
def execFrsq (f : V3) (s : State) : Host.Outcome State Fault Refusal :=
  runV3 (.frsq f) f (fpOp1 f fun k => k.fun1 (rmOf f.mod.toNat) FV.rsq) s

/-- `FEXP2` (R171, R172). -/
def execFexp2 (f : V3) (s : State) : Host.Outcome State Fault Refusal :=
  runV3 (.fexp2 f) f (fpOp1 f fun k => k.fun1 .rne FV.exp2) s

/-- `FLOG2` (R171, R172). -/
def execFlog2 (f : V3) (s : State) : Host.Outcome State Fault Refusal :=
  runV3 (.flog2 f) f (fpOp1 f fun k => k.fun1 .rne FV.log2) s

/-- `FSINP` (R171, R172). -/
def execFsinp (f : V3) (s : State) : Host.Outcome State Fault Refusal :=
  runV3 (.fsinp f) f (fpOp1 f fun k => k.fun1 .rne FV.sinp) s

/-- `FCOSP` (R171, R172). -/
def execFcosp (f : V3) (s : State) : Host.Outcome State Fault Refusal :=
  runV3 (.fcosp f) f (fpOp1 f fun k => k.fun1 .rne FV.cosp) s

/-- `FTANH` (R171, R172). -/
def execFtanh (f : V3) (s : State) : Host.Outcome State Fault Refusal :=
  runV3 (.ftanh f) f (fpOp1 f fun k => k.fun1 .rne FV.tanh) s

/-- `FDOT2` (R173): the exact sum of the addend and two products, rounded once. -/
def execFdot2 (f : V3) (s : State) : Host.Outcome State Fault Refusal :=
  runV3 (.fdot2 f) f (fun _ _ t =>
    let p (i : Nat) : FV := ((ffmt f.t).val (elem 16 (t.val f.a).toNat i)).mul ((ffmt f.t).val (elem 16 (t.val f.b).toNat i))
    outFp .f32 ((ffmt .f32).ofFV (rmOf f.mod.toNat) false (exactSum false [(ffmt .f32).val (t.val f.c).toNat, p 0, p 1]))) s

/-- `CVT` (R175). -/
def execCvt (f : Cvt) (s : State) : Host.Outcome State Fault Refusal :=
  runWord (.cvt f) (pureStep f.d f.a f.b .vz f.h fun _ _ t =>
    outCvt f.t (cvtVal f.t f.ts (cvtMode f.mod).1 (cvtMode f.mod).2 (t.nat f.ts f.a))) s

/-- `CVTP` (R176). -/
def execCvtp (f : Cvt) (s : State) : Host.Outcome State Fault Refusal :=
  runWord (.cvtp f) (pureStep f.d f.a f.b .vz f.h fun _ _ t =>
    [.ofNat 32 (cvtpWord f.t f.ts (cvtMode f.mod).1 (cvtMode f.mod).2 (t.nat f.ts f.a) (t.nat f.ts f.b))]) s

/-- `CVTQ` (R177). -/
def execCvtq (f : Cvt) (s : State) : Host.Outcome State Fault Refusal :=
  runWord (.cvtq f) (pureStep f.d f.a f.b .vz f.h fun _ _ t => cvtqWords f.t f.ts (t.nat f.ts f.a)) s

/-- `CBX` (R178): eight codes through a slot of the thread's own gang. -/
def execCbx (f : Cbx) (s : State) : Host.Outcome State Fault Refusal :=
  runWord (.cbx f) (pureStep f.d f.a f.b .vz f.h fun e tid t =>
    let g := e.s0.gg (tidGk tid)
    let x (i : Nat) : Half := g.entry f.slot.toNat (elem 4 (t.val f.a).toNat i)
    (upto 4).map fun i => x (2 * i + 1) ++ x (2 * i)) s

end Sys2Proof.Machine
end

