-- ==== Sys2Proof/Machine/Link.lean ====
section
/-!
DEFINITION. The two ends of the fabric that other families use: routes of the pod graph (R346 to R348, R360), sending a request
(R353, R357), what a request does at the device that performs it (R219, R220, R257, R359), and the new value of an atomic (R233).
-/
namespace Sys2Proof.Machine

/-! ### Atomics (R233) -/

/-- `.min` and `.max` of one floating-point element, as `FMIN` and `FMAX` (R164). -/
def atomFp (aop : Nat) (f : FFmt) (old x : Nat) : Nat :=
  if aop = 0 then f.add .rne old x else f.select (aop == 2) false old x

/-- The new value of an atomic (R233): operation `aop`, type, old value, datum, and swap value of a `.cas`. -/
def atomNew (aop : Nat) (t : Ty) (old x swap : Nat) : Nat :=
  match aop with
  | 3 => old &&& x
  | 4 => old ||| x
  | 5 => old ^^^ x
  | 6 => x
  | 7 => if old = x then swap else old
  | _ =>
    if t.floating then fpMap2 t (atomFp aop (ffmt t)) old x
    else
      let v (n : Nat) : Int := if t.signed then sextNat t.bits n else (n : Int)
      wrapN t.bits (if aop = 0 then v old + v x else if aop = 1 then min (v old) (v x) else max (v old) (v x))

/-! ### The pod graph (R346 to R348) -/

/-- The point of a member. -/
def podPoint (m : Nat) : Nat × Nat × Nat := if m < 961 then (1, m / 31, m % 31) else if m < 992 then (0, 1, m - 961) else (0, 0, 1)

/-- The member of a canonical point. -/
def podMember (p : Nat × Nat × Nat) : Nat := if p.1 = 1 then 31 * p.2.1 + p.2.2 else if p.2.1 = 1 then 961 + p.2.2 else 992

/-- Two members are adjacent. -/
def podAdj (x y : Nat) : Bool :=
  let a := podPoint x
  let b := podPoint y
  x != y && (a.1 * b.1 + a.2.1 * b.2.1 + a.2.2 * b.2.2) % 31 == 0

/-- The neighbours of a member, in the order of its ports (R347); a device that is no member has none, and its ports do not train (R345). -/
def podNeighbours (m : Nat) : List Nat := if 993 ≤ m then [] else (upto 993).filter (podAdj m)

/-- The inverse modulo 31. -/
def inv31 (x : Nat) : Nat := x ^ 29 % 31

/-- The canonical form of a point. -/
def podCanon (p : Nat × Nat × Nat) : Nat × Nat × Nat :=
  let k := inv31 (if p.1 ≠ 0 then p.1 else if p.2.1 ≠ 0 then p.2.1 else p.2.2)
  (p.1 * k % 31, p.2.1 * k % 31, p.2.2 * k % 31)

/-- The member between two members that are not adjacent (R348). -/
def podMiddle (x y : Nat) : Nat :=
  let a := podPoint x
  let b := podPoint y
  let m (u v w z : Nat) : Nat := (u * v + 31 * 31 - w * z) % 31
  podMember (podCanon (m a.2.1 b.2.2 a.2.2 b.2.1, m a.2.2 b.1 a.1 b.2.2, m a.1 b.2.1 a.2.1 b.1))

/-- The next member on the minimal route. -/
def podNext (x y : Nat) : Nat := if podAdj x y then y else podMiddle x y

/-- Hops of the minimal route. -/
def podHops (x y : Nat) : Nat := if x = y then 0 else if podAdj x y then 1 else 2

/-- The port on which a member sends to another. -/
def podPort (x y : Nat) : Nat := (podNeighbours x).findIdx (· == podNext x y)

/-- The port on which this device sends toward a member. -/
def State.portTo (s : State) (m : Nat) : Nat := podPort s.pkg.member m

/-- The port's link is Up. -/
def State.portUp (s : State) (p : Nat) : Bool := (s.pt p).lst == 2

/-! ### Routes of a request (R360) -/

/-- No intermediate. -/
def noVia : Nat := 0x3FF

/-- The candidates: the minimal route and the filled slots of the route table's entry. -/
def State.vias (s : State) (dst : Nat) : List Nat :=
  let e := (Tbl.get (-1) s.fab.route dst).toNat
  noVia :: ((upto 4).map fun j => bitsOf e (10 * j) 10).filter (· != noVia)

/-- First hop and length of a candidate. -/
def State.viaRoute (s : State) (dst via : Nat) : Nat × Nat :=
  if via = noVia then (s.portTo dst, podHops s.pkg.member dst)
  else (s.portTo via, podHops s.pkg.member via + podHops via dst)

/-- A packet is a request (R354). -/
def isRequest (pk : FabPkt) : Bool := pk.kind == 0 || (decide (2 ≤ pk.kind) && decide (pk.kind ≤ 7))

/-- Flits of a packet (R349): its 32-byte header and its payload, in whole flits. -/
def pktFlits (pk : FabPkt) : Nat := (32 + pk.data.length + 255) / 256

/-- The buffer class of a packet (R354): by its hop, requests 0 to 3 and responses 4 to 7. -/
def pktCls (pk : FabPkt) : Nat := (if isRequest pk then 0 else 4) + min 3 pk.hop

/-- Flits that a port holds in the request classes (R360): those of every request in custody there. -/
def State.portFlits (s : State) (port : Nat) : Nat :=
  ((s.fab.cust.filter fun c => c.port == port && isRequest c.pk).map fun c => pktFlits c.pk).sum

/-- A candidate returned LINKDOWN in the last millisecond (R360). -/
def State.viaDown (s : State) (dst via : Nat) : Bool :=
  s.fab.down.any fun b => b.1 == dst && b.2.1 == via && decide (s.time < b.2.2 + 1000000)

/-- The route of a request to a member (R360): of the candidates whose first-hop port is Up, less those that lately returned LINKDOWN unless
all did, the one of least cost d + 8h, the first of several. -/
def State.pickVia (s : State) (dst : Nat) : Option Nat :=
  let up := (s.vias dst).filter fun v => s.portUp (s.viaRoute dst v).1
  let ok := if up.all (s.viaDown dst) then up else up.filter fun v => !s.viaDown dst v
  let cost (v : Nat) : Nat := s.portFlits (s.viaRoute dst v).1 + 8 * (s.viaRoute dst v).2
  (ok.foldl (fun (b : Option (Nat × Nat)) v => match b with
    | none => some (v, cost v)
    | some c => if cost v < c.2 then some (v, cost v) else b) none).map (·.1)

/-- The incarnation of a member, as this device knows it (R361). -/
def State.incOf (s : State) (m : Nat) : Nat := Tbl.get 0 s.fab.inc m

/-- The number that stands for the port of a packet that this device makes for itself (log 53). -/
def selfPort : Nat := 33

/-- The flits of a packet join a port's replay buffer of 256 (R350). -/
def Port.send (x : Port) (pk : FabPkt) : Port :=
  let b := x.buf ++ (upto (pktFlits pk)).map fun i => { seq := (x.tx + i) % 2 ^ 12, pk, i }
  { x with tx := (x.tx + pktFlits pk) % 2 ^ 12, buf := b.drop (b.length - 256) }

/-- A packet leaves on a port whose link is Up; there is no traffic on another (R352). -/
def State.emit (s : State) (port : Nat) (pk : FabPkt) : State :=
  if s.portUp port then
    let s := s.setPt port ((s.pt port).send pk)
    { s with fab := { s.fab with sent := s.fab.sent ++ [(port, pk)] } }
  else s

/-- A class of a port has credit for a packet (R354, R355): its unacknowledged flits and the packet's fit, or it has none outstanding. -/
def State.credit (s : State) (port : Nat) (pk : FabPkt) : Bool :=
  let used := ((s.fab.cust.filter fun c => c.port == port && c.out && pktCls c.pk == pktCls pk).map fun c => pktFlits c.pk).sum
  used == 0 || decide (used + pktFlits pk ≤ s.pkg.cred)

/-- The first packet of a class that waits at a port. -/
def State.queued (s : State) (port cls : Nat) : Option Cust := s.fab.cust.find? fun c => c.port == port && !c.out && pktCls c.pk == cls

/-- The first packets of the classes that wait at a port, which have credit, are sent, in the order of the classes. -/
def State.pump (s : State) (port : Nat) : Nat → State
  | 0 => s
  | fuel + 1 =>
    if !s.portUp port then s
    else match (upto 8).findSome? fun k => (s.queued port k).filter fun c => s.credit port c.pk with
      | none => s
      | some c =>
        State.pump (State.emit { s with fab := { s.fab with cust := s.fab.cust.erase c ++ [{ c with out := true, at' := s.time }] } } port c.pk) port fuel

/-- A packet is held for a port, and sent when its class has credit; this device holds custody of it until the next hop takes it (R354, R356). -/
def State.hold (s : State) (port : Nat) (pk : FabPkt) : State :=
  if s.portUp port && (s.queued port (pktCls pk)).isNone && s.credit port pk then
    let s := s.emit port pk
    { s with fab := { s.fab with cust := s.fab.cust ++ [{ pk, port, tries := 0, at' := s.time }] } }
  else { s with fab := { s.fab with cust := s.fab.cust ++ [{ pk, port, tries := 0, at' := s.time, out := false }] } }

/-- A request goes on a route, or comes back at once as one that no hop could forward (R356, R360). -/
def State.sendReq (s : State) (r : OutReq) : State :=
  let dst := r.pk.dgdn % 2 ^ 10
  match s.pickVia dst with
  | some via =>
    let pk := { r.pk with via, dinc := s.incOf dst, hop := 0 }
    let r := { r with pk, sentAt := s.time }
    ({ s with fab := { s.fab with out := s.fab.out.filter (fun (x : OutReq) => x.pk.tag != pk.tag) ++ [r] } }).hold
      (s.viaRoute dst via).1 pk
  | none =>
    { s with
      fab := { s.fab with out := s.fab.out.filter (fun (x : OutReq) => x.pk.tag != r.pk.tag) ++ [{ r with sentAt := s.time }] }
      agenda := s.agenda ++ [.event (.nakArrive ⟨selfPort, { r.pk with kind := 9, opx := 2, sgdn := s.gdn, dgdn := s.gdn, data := [] }⟩)] }

/-- Requests to one destination that have no outcome. -/
def State.outTo (s : State) (gdn : Nat) : Nat := (s.fab.out.filter fun r => r.pk.dgdn == gdn).length

/-- A tag that no outstanding request has. -/
def State.freeTag (s : State) : Nat :=
  (((upto (s.fab.out.length + 1)).map fun i => (s.fab.tag + i) % 2 ^ 16).find? fun t => !(s.fab.out.any fun r => r.pk.tag == t)).getD 0

/-- A request of the source (R353, R357): the tag it takes, or none while 256 are outstanding to its destination. -/
def State.request (s : State) (owner : Owner) (kind dst opx atype pa edge : Nat) (data : List Byte) (va : Nat := 0) :
    Option (Nat × State) :=
  if 256 ≤ s.outTo dst then none
  else
    let tag := s.freeTag
    let seq := Tbl.get 0 s.fab.seq dst
    let pk : FabPkt := { kind, via := noVia, sinc := s.pkg.inc, dinc := s.incOf (dst % 2 ^ 10), seq, tag, sgdn := s.gdn, dgdn := dst,
                         hop := 0, opx, pa, edge := edge % 2 ^ 48, atype, data }
    let s := { s with fab := { s.fab with tag := (tag + 1) % 2 ^ 16, seq := Tbl.set 0 s.fab.seq dst ((seq + 1) % 2 ^ 16) } }
    some (tag, s.sendReq { pk, owner, va })

/-! ### Ethernet (R365, R368) -/

/-- The largest frame of an Ethernet port. -/
def maxFrame : Nat := 9216

/-- A frame comes by an Ethernet port: one that MACsec fails to authenticate is dropped and counted before any other check; one longer than a frame
may be is not taken. -/
def State.ethIn (s : State) (w : Wire) : State × Bool :=
  if !w.auth then ({ s with pkg := { s.pkg with macbad := Tbl.set 0 s.pkg.macbad (w.port % 8) (Tbl.get 0 s.pkg.macbad (w.port % 8) + 1) } }, false)
  else (s, decide (w.len ≤ maxFrame))

/-- The address of a device in the member table (R339, R365). -/
def State.memberAddr (s : State) (gdn : Nat) : Nat := ((s.pow.members.find? fun m => m.2.1 == gdn).map fun m => m.2.2).getD 0

/-! ### Performing a request on this device (R219, R220, R236, R257, R359) -/

/-- A physical access of this device for the fabric: BADADDR outside its memory, POISON on a marked sector. -/
def State.fabCheck (s : State) (pa n : Nat) : Option Nat :=
  if hbmTop < pa + n then some 5 else if s.poisoned pa n then some 3 else none

/-- The flag increment of an `FST` or `MCST` after its data (R220): code 7 when it fails. -/
def State.fabFlag (s : State) (flag edge : Nat) : Except Nat (List Byte) × State :=
  if (s.fabCheck flag 8).isSome ∨ flag % 8 ≠ 0 then (.error 7, s)
  else (.ok [], s.wrN flag 8 ((s.rd flag 8 + 1) % 2 ^ 64) edge)

/-- A read-modify-write at a physical address: the old value. -/
def State.rmw (s : State) (loc n : Nat) (new : Nat → Nat) (edge : Nat) : Nat × State :=
  let old := s.rd loc n
  (old, s.wrN loc n (new old) edge)

/-- The signal window of the schedule slots (R386). -/
def signalBase : Nat := hbmTop + 0x10000000

/-- The slot and signal that an address of the signal window names. -/
def signalOf (pa : Nat) : Option (Nat × Nat) :=
  if signalBase ≤ pa ∧ pa < signalBase + 0x2000 ∧ pa % 8 = 0 then some ((pa - signalBase) / 128, (pa - signalBase) / 8 % 16) else none

/-- An increment of a signal by a device, or by a rank of the communicator: refused by a slot that is Empty, Loaded or Faulted, or whose
communicator has no rank of the device. -/
def State.signalIn (s : State) (slot sig count gdn edge : Nat) : Option State :=
  let x := s.sl slot
  if x.st ≤ 1 ∨ x.st = 7 ∨ !(x.comm.any fun c => c.2.1 == gdn) then none
  else some (s.setSl slot { x with sig := setAt 0 x.sig sig (min (x.sig.getD sig 0 + count) (2 ^ 32 - 1))
                                   sigEdge := Tbl.set 0 x.sigEdge sig (edge % 2 ^ 48) })

/-- The bytes that a memory request names at its address. -/
def fabBytes (kind opx atype len : Nat) : Nat :=
  match kind with
  | 0 | 5 => 2 ^ (opx % 8)
  | 3 => len - 8
  | 4 => (Ty.ofCode (atype % 16)).bits / 8
  | _ => len

/-- A memory request performed in this device's order, which fills the lines that it names (R416): the data that answer it, or a NAK code.  Kinds 0 LD, 2 ST, 3 FST, 4 ATOM,
5 MCST (R353); the flag of an MCST stands before its data as an FST's does, when there is one (log 25). -/
def State.fabMem (s : State) (kind opx atype pa edge : Nat) (data : List Byte) (src : Nat := s.gdn) : Except Nat (List Byte) × State :=
  let s := s.fills pa (fabBytes kind opx atype data.length)
  match kind with
  | 0 =>
    let n := if opx % 8 ≤ 4 then 2 ^ (opx % 8) else 0
    match s.fabCheck pa n with
    | some c => (.error c, s)
    | none => (.ok (s.bytes pa n), s)
  | 2 =>
    match s.fabCheck pa data.length with
    | some c => (.error c, s)
    | none => (.ok [], s.wr pa data edge)
  | 3 =>
    let d := data.drop 8
    match s.fabCheck pa d.length with
    | some c => (.error c, s)
    | none => (s.wr pa d edge).fabFlag (leNat (data.take 8)) edge
  | 4 =>
    let t := Ty.ofCode (atype % 16)
    let n := t.bits / 8
    let aop := opx / 16 % 16
    if let some (slot, sig) := signalOf pa then
      (if aop = 0 ∧ atype % 16 = 3 then
        match s.signalIn slot sig (leNat (data.take 8)) src edge with
        | some s => (.ok (natLe 8 0), s)
        | none => (.error 5, s)
      else (.error 5, s))
    else match s.fabCheck pa n with
    | some c => (.error c, s)
    | none =>
      let (old, s) := s.rmw pa n (fun old => atomNew aop t old (leNat (data.take n)) (leNat (data.drop n))) edge
      (.ok (natLe n old), s)
  | _ =>
    let w := 2 ^ (opx % 8)
    let flagged := w < data.length
    let d := if flagged then data.drop 8 else data
    match s.fabCheck pa d.length with
    | some c => (.error c, s)
    | none => if flagged then (s.wr pa d edge).fabFlag (leNat (data.take 8)) edge else (.ok [], s.wr pa d edge)

end Sys2Proof.Machine
end

