-- ==== Sys2Proof/Machine/Fetch.lean ====
section
/-!
DEFINITION. Reaching memory for a thread (R258), instruction fetch (R73, R258, R317), and the decoding of the word that a group
stands at (checks 1 to 3 of R92).
-/
namespace Sys2Proof.Machine

/-- The fault record of a thread's access (R260), its cause to be given. -/
def State.recAt (s : State) (tid agent : Nat) (rd wr : Bool) (va : Nat) (pc : DWord) : FRec :=
  let (_, kid, opc) := s.original tid pc
  { cause := cPageFatal, agent, rd, wr, va, lanes := 2 ^ tidLane tid, grid := (s.gridOf tid).num, pc, kid, opc,
    core := s.coreOf tid }

/-- What the translation of a thread's address comes to (R258). -/
inductive Reach where
  | ok (x : Xlat)
  /-- PAGE_FATAL: malformed, or absent and not replayable. -/
  | fatal (r : FRec)
  /-- A replayable PAGE fault. -/
  | page (r : FRec)

/-- The translation of an address for a thread (R258). -/
def State.reach (s : State) (tid agent : Nat) (rd wr : Bool) (va : Nat) (pc : DWord) : Reach × State :=
  let core := s.coreOf tid
  let cid := s.cidOf tid
  match s.xlat cid (some core) (coreDie core) va with
  | (.ok x, s) => (.ok x, s)
  | (.error e, s) =>
    let r := s.recAt tid agent rd wr va pc
    if e = .absent ∧ s.replayOn cid then (.page { r with cause := cPage }, s) else (.fatal r, s)

/-- What a fetch comes to. -/
inductive Fetch where
  | word (w : DWord)
  | trap (c : Cause)
  | fatal (r : FRec)
  | page (r : FRec)

/-- The live splice cache entry of a context that holds an address (R317). -/
def State.spliceAt (s : State) (cid a : Nat) : Option SplE :=
  s.splices.find? fun e => e.cid == cid && decide (e.base ≤ a) && decide (a < e.base + 8 * e.text.length)

/-- The fetch of the word at a PC for a thread (R73, R258, R317): through an executable local page, or from the splice cache.  A marked sector is
fetched as memory holds it (log 121). -/
def State.fetchWord (s : State) (tid : Nat) (pc : DWord) : Fetch × State :=
  let a := pcAddr pc
  let access : Fetch := .trap (cAccess, .ofNat 64 a)
  if spliceVa ≤ a then
    match s.spliceAt (s.cidOf tid) a with
    | some e => (.word (e.text.getD ((a - e.base) / 8) 0), s)
    | none => (access, s)
  else
    match s.reach tid 1 true false a pc with
    | (.fatal r, s) => (.fatal r, s)
    | (.page r, s) => (.page r, s)
    | (.ok x, s) =>
      if !pteX x.pte || (pteSo x.pte && (s.th tid).lvl == .u) then (access, s)
      else if x.held.st = 6 then (.trap (cVacated, .ofNat 64 a), s)
      else match x.place s a with
        | .loc n => (.word (.ofNat 64 (s.rd n 8)), s.fill n)
        | _ => (access, s)

/-- The word that a thread would fetch, without a trace in the state. -/
def State.peek (s : State) (tid : Nat) (pc : DWord) : Option DWord :=
  match (s.fetchWord tid pc).1 with
  | .word w => some w
  | _ => none

/-- A group's fetch fails (R258): a trap for every member, or the group is Fault-stalled. -/
def State.fetchFail (s : State) (core : Nat) (g : Group) : Fetch → State
  | .word _ => s
  | .trap c => s.slotTrap core g (g.members.map fun t => (t, c))
  | .fatal r => ((s.faultRec (s.cidOf (g.members.headD 0)) { r with lanes := laneMask g.members }).2).slotTrap core g
      (g.members.map fun t => (t, cPageFatal, BitVec.ofNat 64 r.va))
  | .page r => s.slotPage core g (g.members.map fun t => (t, r))

/-- What a group's slot holds: an instruction that passes checks 1 to 3 of R92, or the state after the fetch or a check failed. -/
def State.slotFetch (s : State) (core : Nat) (g : Group) : Except State (Instr × State) :=
  match s.fetchWord (g.members.headD 0) g.pc with
  | (.word w, s) =>
    match decodeWord w with
    | .ok i => .ok (i, s)
    | .error e =>
      let all (c : Nat) (v : DWord) : State := s.slotTrap core g (g.members.map fun t => (t, c, v))
      .error (if e = .opcode then all cIllOp w else if !g.clauseOk (wordOp w) then all cIllClause g.hdr else all cIllEnc w)
  | (f, s) => .error (s.fetchFail core g f)

end Sys2Proof.Machine
end

