-- ==== Sys2Proof/Machine/Group.lean ====
section
/-!
DEFINITION. Issue groups: the frontier (R103, R105, R107), relief (R108), the checks of a clause header (R75, R78), the charge
(R326, R328), the clause's issue, and the events that move a thread between states (R102, R110, R115 to R117).
-/
namespace Sys2Proof.Machine

/-! ### Helpers -/

/-- Inserts by a key, after equal keys. -/
def insertBy {α : Type} (key : α → Nat) (x : α) : List α → List α
  | [] => [x]
  | y :: ys => if key x < key y then x :: y :: ys else y :: insertBy key x ys

/-- A list in the order of a key, equal keys as they stand. -/
def sortBy {α : Type} (key : α → Nat) (l : List α) : List α := l.foldl (fun acc x => insertBy key x acc) []

/-! ### Halts and PREEMPT (R34, R116, R117) -/

/-- The context of a thread is Running or Pre-empting: its threads may issue. -/
def State.mayRun (s : State) (tid : Nat) : Bool :=
  let st := (s.cx (s.cidOf tid)).state
  st == 4 || st == 5

/-- The header word of a thread's next clause, when it can be fetched. -/
def State.headerOf (s : State) (tid : Nat) : Option DWord := s.peek tid (mkPc (pcHeader (s.th tid).pc) 0)

/-- The thread is in Flag-wait (R102). -/
def State.flagWait (s : State) (tid : Nat) : Bool :=
  match s.headerOf tid with
  | some h => bitsOf h.toNat 60 4 == 10 && (upto 12).any fun k => hdrWait h k && (s.th tid).flag k != 0
  | none => false

/-- A thread takes its posted halt (R117): it stops, for a posted stop (reason 0) or for a `STEP1` whose slot has trapped (reason 1; R390, R391), or
traps with HALT; `TST` of one in Flag-wait is 1 (R204). -/
def State.takeHalt (s : State) (tid : Nat) : State :=
  match (s.th tid).halt, (s.th tid).stepDue with
  | none, false => s
  | some false, _ => s.stopThread tid 0 0
  | _, true => s.stopThread tid 1 0
  | some true, false =>
    let wait := (s.th tid).st == .ready && s.flagWait tid
    let s := s.modTh tid fun t => { t with halt := none }
    (s.takeTrap tid cHalt 0 (s.th tid).pc).modTh tid fun t => { t with tst := if wait then 1 else t.tst }

/-- A thread takes its posted PREEMPT (R34, R38): it traps with PREEMPT; a halted one is released into its handler and will be
returned halted. -/
def State.takePreempt (s : State) (tid : Nat) : State :=
  match (s.th tid).preempt with
  | none => s
  | some v =>
    let was := (s.th tid).st == .halted
    let s := s.modTh tid fun t => { t with preempt := none }
    let s := s.takeTrap tid cPreempt (.ofNat 64 (v ||| was.toNat)) (s.th tid).pc
    s.modTh tid fun t => { t with hlt := was, save := .inHandler }

/-- The thread is a member of a group of its core whose slot stalls while others issue. -/
def State.parkedIn (s : State) (tid : Nat) : Bool := (s.co (s.coreOf tid)).parked.any fun g => g.members.contains tid

/-- The thread is a member of a group that has issued on its core: the one in progress, or one that stalls. -/
def State.inGroup (s : State) (tid : Nat) : Bool :=
  (match (s.co (s.coreOf tid)).grp with
  | some g => g.members.contains tid
  | none => false) || s.parkedIn tid

/-- The state code of a thread as a debugger sees it (R102, R390): a Ready thread between clauses may be in Flag-wait. -/
def State.threadCode (s : State) (tid : Nat) : Nat :=
  let t := s.th tid
  if t.st == .ready && !t.inh && !s.inGroup tid && s.flagWait tid then 1 else t.code

/-- The thread stands where a halt or PREEMPT may reach it (R116, R117): Ready at a clause boundary, which a PC amid a clause is not (R78), or Blocked
or Fault-stalled; not in its handler. -/
def State.reachable (s : State) (tid : Nat) : Bool :=
  let t := s.th tid
  !t.inh && !s.inGroup tid && ((t.st == .ready && pcSlot t.pc == 0) || t.st == .blocked || t.st == .stalled)

/-- A halt waits for the thread: a posted one, or that of a `STEP1` whose slot has trapped (R390). -/
def Thr.haltDue (t : Thr) : Bool := t.halt.isSome || t.stepDue

/-- A thread may take a halt now (R117). -/
def State.haltReady (s : State) (tid : Nat) : Bool := (s.th tid).haltDue && s.reachable tid

/-- A thread may take PREEMPT now: as for a halt, which comes first (R116), or Halted, with every flag zero (R34, R38). -/
def State.preemptReady (s : State) (tid : Nat) : Bool :=
  let t := s.th tid
  t.preempt.isSome && !t.haltDue && t.flagsZero && (s.reachable tid || (t.st == .halted && !t.inh && !s.inGroup tid))

/-- A halt request reaches a thread (R117): at once when it is Blocked or Fault-stalled, else at its next clause boundary; no
effect on one that is Halted, Exited or Never launched. -/
def State.postHalt (s : State) (tid : Nat) (trap : Bool) : State :=
  let t := s.th tid
  if t.st == .halted || t.st == .exited || t.st == .never then s
  else
    let s := s.modTh tid fun t => { t with halt := some ((t.halt.getD true) && trap) }
    if (t.st == .blocked || t.st == .stalled) && s.haltReady tid then s.takeHalt tid else s

/-! ### The frontier (R103, R107) -/

/-- The thread is Ready and may be offered for issue: not in Flag-wait (R110), not saved, and at a clause boundary not kept for its PREEMPT (R34). -/
def State.offered (s : State) (tid : Nat) : Bool :=
  let t := s.th tid
  s.holdsSlot tid && t.st == .ready && t.save != .done && s.mayRun tid && !s.flagWait tid &&
    !(t.preempt.isSome && !t.inh && !t.haltDue && !t.flagsZero && pcSlot t.pc == 0)

/-- The thread waits for an issue: it is offered, and no member of a group that has issued. -/
def State.toIssue (s : State) (tid : Nat) : Bool := s.offered tid && !s.parkedIn tid

/-- `ADDR` and `SLOT` of a PC as one number to compare (R103). -/
def pcRank (pc : DWord) : Nat := pcAddr pc * 32 + pcSlot pc

/-- The threads of a gang. -/
def gangTids (gk : Nat) : List Nat := (upto 32).map (gkTid gk)

/-- The threads of a core on a lane (R109). -/
def State.onLane (s : State) (core lane : Nat) : Nat :=
  ((s.thr.map (·.1)).filter fun t => tidLane t == lane && s.liveTid t && s.resident t && s.coreOf t == core).length

/-- The clauses that a thread may wait for before it is due: so many fewer than the bound of R109 that every due thread issues within it (log 109). -/
def State.dueAt (s : State) (tid : Nat) : Nat := 4096 * max 1 (s.onLane (s.coreOf tid) (tidLane tid) - 1)

/-- A thread that waits for an issue and is not deferred has waited so long that it is due (R109). -/
def State.due (s : State) (tid : Nat) : Bool :=
  let t := s.th tid
  decide (4096 ≤ t.waited) && decide (s.dueAt tid ≤ t.waited) && !t.deferred && s.toIssue tid

/-- The due thread of a gang that has waited most. -/
def State.dueOf (s : State) (gk : Nat) : Option Nat :=
  ((gangTids gk).filter s.due).foldl (fun b t => match b with
    | some u => if (s.th u).waited < (s.th t).waited then some t else some u
    | none => some t) none

/-- The frontier of a gang: of its Ready threads that are not deferred, or of all when every one is, those whose PC is lowest
(R103, R107); where a thread is due, those at its PC and level (R109). -/
def State.frontier (s : State) (gk : Nat) : List Nat :=
  let ready := (gangTids gk).filter s.toIssue
  let free := ready.filter fun t => !(s.th t).deferred
  match s.dueOf gk with
  | some d => free.filter fun t => (s.th t).pc == (s.th d).pc && (s.th t).lvl == (s.th d).lvl
  | none =>
    let use := if free.isEmpty then ready else free
    let low := use.foldl (fun m t => min m (pcRank (s.th t).pc)) (2 ^ 64)
    use.filter fun t => pcRank (s.th t).pc == low

/-- The gangs on a core, oldest first: by placement, then by number (R104). -/
def State.gangsOn (s : State) (core : Nat) : List Nat :=
  (sortBy (fun x => x.2.order) (s.blk.filter fun x => x.2.live && x.2.core == core)).flatMap fun x =>
    (upto (s.gr x.2.gid).gangs).map fun g => 32 * x.1 + g

/-- How long the due thread of a gang has waited; 0 without one. -/
def State.dueFor (s : State) (gk : Nat) : Nat := ((s.dueOf gk).map fun t => (s.th t).waited).getD 0

/-- The gangs on a core as their age counts: first those with a due thread, the longest wait first (R109; log 109), then those that starved (R104). -/
def State.ranked (s : State) (core : Nat) : List Nat :=
  let gs := s.gangsOn core
  let due := (sortBy (fun g => s.dueFor g) (gs.filter fun g => s.dueFor g != 0).reverse).reverse
  let rest := gs.filter fun g => s.dueFor g == 0
  due ++ rest.filter (fun g => decide (4096 ≤ (s.gg g).starve)) ++ rest.filter fun g => decide ((s.gg g).starve < 4096)

/-- The words of a thread's next clause, as far as they can be fetched; an unreadable one is all ones. -/
def State.clauseWords (s : State) (tid : Nat) (h : DWord) : List DWord :=
  let a := pcHeader (s.th tid).pc
  (upto (hdrLen h)).map fun i => (s.peek tid (mkPc (a + 8 * (i + 1)) (i + 1))).getD (-1)

/-- A thread's next clause is gang-scoped (R105). -/
def State.scoped (s : State) (tid : Nat) : Bool :=
  match s.headerOf tid with
  | some h => bitsOf h.toNat 60 4 == 10 && (s.clauseWords tid h).any fun w => opGangScoped (wordOp w)
  | none => false

/-- An entry of the PC table with the threads it gathers, in ascending lane order (R103, R211). -/
structure Entry where
  key : EntKey
  members : List Nat

/-- The key of a thread's entry (R103, R105). -/
def State.keyOf (s : State) (t : Nat) : EntKey :=
  { gid := (s.blkOf t).gid, pc := (s.th t).pc, lvl := (s.th t).lvl, gang := if s.scoped t then some (tidGk t) else none }

/-- A frontier thread joins its entry, unless its lane is taken by an older gang (R103, R104). -/
def joinEntry (k : EntKey) (t : Nat) : List Entry → List Entry
  | [] => [{ key := k, members := [t] }]
  | x :: xs =>
    if x.key = k then
      { x with members := if x.members.any fun u => tidLane u == tidLane t then x.members else insertBy tidLane t x.members } :: xs
    else x :: joinEntry k t xs

/-- What the entries of a core would gather, in the order of their oldest gang. -/
def State.entries (s : State) (core : Nat) : List Entry :=
  ((s.ranked core).flatMap s.frontier).foldl (fun es t => joinEntry (s.keyOf t) t es) []

/-- The PC table takes the frontiers that have no entry, the older first, while fewer than 64 entries are held (R103).  An entry whose frontier has
gone without issuing is freed (log 98). -/
def State.fillTable (s : State) (core : Nat) : State :=
  let keys := (s.entries core).map (·.key)
  let kept := (s.co core).table.filter keys.contains
  let new := (keys.filter fun k => !kept.contains k).take (64 - kept.length)
  s.modCo core fun c => { c with table := kept ++ new }

/-- The entry that issues first of those held (R104): one that holds a thread of the oldest gang, then the one with more members, then the lower
PC. -/
def State.pickEntry (s : State) (core : Nat) : Option Entry :=
  let es := (s.entries core).filter fun x => (s.co core).table.contains x.key
  let old := (s.ranked core).find? fun gk => es.any fun x => x.members.any fun t => tidGk t == gk
  match es.filter fun x => x.members.any fun t => some (tidGk t) == old with
  | [] => none
  | e :: es => some (es.foldl (fun b x =>
      if b.members.length < x.members.length ∨ (b.members.length = x.members.length ∧ pcRank x.key.pc < pcRank b.key.pc) then x else b) e)

/-- The threads of the clause that waits for tokens that are still Ready at it (R328). -/
def State.stalledAt (s : State) (core : Nat) : List Nat :=
  match (s.co core).stall with
  | some (k, ms) => ms.filter fun t => s.resident t && s.toIssue t && s.keyOf t == k
  | none => []

/-- A core is in a token stall (R328): a thread waits at the clause that waits. -/
def State.stalledOn (s : State) (core : Nat) : Bool := !(s.stalledAt core).isEmpty

/-- The deferrals of a gang end when no other thread of it is Ready than deferred ones (R107; log 95). -/
def State.undeferGang (s : State) (gk : Nat) : State :=
  if (gangTids gk).any fun t => s.offered t && !(s.th t).deferred then s
  else ((gangTids gk).filter fun t => (s.th t).deferred).foldl (fun s t => s.modTh t fun x => { x with deferred := false }) s

/-- The same for the gangs of a core. -/
def State.undefer (s : State) (core : Nat) : State := (s.gangsOn core).foldl State.undeferGang s

/-! ### The charge (R325, R326, R328) -/

/-- The price-table column of a word (R230, R325). -/
def State.priceCol (s : State) (tid addr : Nat) (w : DWord) : Nat :=
  let op := wordOp w
  let n := w.toNat
  if op = 0x23 ∨ op = 0x24 then [1, 0, 4, 3].getD (bitsOf n 36 2) 0
  else if op < 0x2D then (if 0x25 ≤ op then bitsOf n 26 4 else bitsOf n 10 4)
  else if op < 0x90 then bitsOf n 10 4
  else if op = 0x92 ∨ op = 0x93 ∨ op = 0x96 then bitsOf n 4 4
  else if op < 0x98 then bitsOf n 19 3
  else if op = 0x98 ∨ op = 0x99 then ((s.tileOf tid addr (bitsOf n 6 6)).map (·.elt)).getD 0
  else if op = 0xC0 then bitsOf n 6 4
  else if op = 0xEA then bitsOf n 6 4
  else 0

/-- `BASE` and `LANE` of an entry of the price table (R324). -/
def State.priceOf (s : State) (idx : Nat) : Nat × Nat :=
  let e := (Tbl.get 0 s.pkg.price idx).toNat
  (e / 2 ^ 16, e % 2 ^ 16)

/-- The charge of a clause for the slots from the `first` on and `n` members, in 1/256 token (R326); words that are no
instructions have no price (R324). -/
def State.charge (s : State) (tid addr first n : Nat) (ws : List DWord) : Nat :=
  (((upto ws.length).zip ws).map fun (i, w) =>
    if first ≤ i + 1 ∧ (opFmt (wordOp w)).isSome then
      let p := s.priceOf (16 * wordOp w + s.priceCol tid (addr + 8 * (i + 1)) w)
      p.1 + p.2 * n
    else 0).sum

/-! ### Beginning a clause -/

/-- A deferred error that is not raised goes to the fault queue (R229). -/
def State.errRec (s : State) (tid : Nat) (e : DErr) : State :=
  let r := s.recAt tid 6 (!e.wr) e.wr (e.va % 2 ^ 56) e.pc
  (s.faultRec (s.cidOf tid) { r with cause := e.code, nak := e.nak }).2

/-- The earliest issued of some errors. -/
def firstErr (es : List DErr) : Option DErr :=
  es.foldl (fun b e => match b with
    | none => some e
    | some x => if e.seq < x.seq then some e else some x) none

/-- The errors that a thread may raise at a header: in its handler only those of the handler's own accesses (R229). -/
def Thr.dueErrs (t : Thr) : List DErr := t.errs.filter fun e => !e.outer

/-- A fabric error. -/
def fabricCode (c : Nat) : Bool := c == cFabric || c == cMcast

/-- A fabric error that is raised has a fault record, which gives its NAK code (R358). -/
def State.nakRec (s : State) (tid : Nat) (e : DErr) : State := if fabricCode e.code then s.errRec tid e else s

/-- A thread raises the earliest of its pending errors; the others go to the fault queue (R229). -/
def State.raiseErr (s : State) (tid : Nat) (pc : DWord) : State :=
  match firstErr (s.th tid).dueErrs with
  | none => s
  | some e =>
    let rest := (s.th tid).dueErrs.erase e
    let s := s.modTh tid fun t => { t with errs := t.errs.filter (·.outer) }
    (rest.foldl (fun s x => s.errRec tid x) (s.nakRec tid e)).takeTrap tid e.code e.tval pc

/-- A member at its header, after the header's own checks (R116, R229): it raises a deferred error, takes a halt, takes PREEMPT, or
stays in the group. -/
def State.memberCheck (s : State) (tid : Nat) (hpc : DWord) (atHeader : Bool) : Bool × State :=
  let t := s.th tid
  if atHeader && !t.dueErrs.isEmpty then (false, s.raiseErr tid hpc)
  else if s.haltReady tid then (false, s.takeHalt tid)
  else if s.preemptReady tid then (false, s.takePreempt tid)
  else (s.resident tid, s)

/-- The members that stay, and the state after the others left. -/
def State.memberChecks (s : State) (hpc : DWord) (atHeader : Bool) : List Nat → List Nat × State
  | [] => ([], s)
  | t :: ts =>
    let (stay, s) := s.memberCheck t hpc atHeader
    let (rest, s) := s.memberChecks hpc atHeader ts
    (if stay then t :: rest else rest, s)

/-- The count of R109 at a clause's issue, for a thread of the core: up by one when its gang or its lane has issued while it was left waiting in a Running
context, and else 0; a deferred thread keeps it. -/
def State.waitCount (s : State) (members : List Nat) (tid : Nat) : State :=
  let t := s.th tid
  if members.contains tid || !s.toIssue tid then (if t.waited = 0 then s else s.setTh tid { t with waited := 0 })
  else if t.deferred || (s.cx (s.cidOf tid)).state != 4 then s
  else if members.any fun m => tidGk m == tidGk tid || tidLane m == tidLane tid then s.setTh tid { t with waited := t.waited + 1 }
  else s

/-- The counts of R104, R107, R108 and R109 at a clause's issue: relief rises while a Ready thread at a higher PC is not issued, and falls to 0 when one at a
higher PC than another Ready thread issues; at 4,096 the whole frontier is deferred. -/
def State.issueCounts (s : State) (core : Nat) (h : DWord) (members : List Nat) (pc : DWord) : State :=
  let mine := (members.map tidGk).eraseDups
  let s := (s.gangsOn core).foldl (fun s gk => (gangTids gk).foldl (fun s t => s.waitCount members t) s) s
  (s.gangsOn core).foldl (fun s gk =>
    let ready := (gangTids gk).filter s.toIssue
    if mine.contains gk then
      let others := (gangTids gk).filter fun t => !members.contains t && (s.th t).deferred
      let s := others.foldl (fun s t => s.modTh t fun x => { x with deferred := false }) s
      let lower := ready.any fun t => !members.contains t && pcRank (s.th t).pc < pcRank pc
      let higher := !lower && ready.any fun t => !members.contains t && pcRank pc < pcRank (s.th t).pc
      let n := (s.gg gk).relief + 1
      let s := s.modGg gk fun g => { g with starve := 0, relief := if lower || (higher && decide (4096 ≤ n)) then 0 else if higher then n else g.relief }
      let front := (gangTids gk).filter fun t => members.contains t || (ready.contains t && pcRank (s.th t).pc == pcRank pc)
      front.foldl (fun s t => s.modTh t fun x =>
        { x with deferred := (higher && decide (4096 ≤ n)) || (if members.contains t then hdrYld h else x.deferred) }) s
    else if ready.isEmpty then s
    else s.modGg gk fun g => { g with starve := g.starve + 1 }) s

/-- A clause is paid for and issues, which frees its entry (R103), or its core enters a token stall (R328). -/
def State.payIssue (s : State) (core addr first : Nat) (h : DWord) (members : List Nat) (pc : DWord) : State :=
  let amt := s.charge (members.headD 0) addr first members.length (s.clauseWords (members.headD 0) h)
  let key := s.keyOf (members.headD 0)
  let c := s.co core
  if c.bucket < (min amt (4096 * 256) : Nat) then
    s.setCo core { c with stall := some (key, members), stalls := c.stalls + c.stall.isNone.toNat }
  else
    let s := s.setCo core { c with
      stall := none, bucket := c.bucket - amt, charged := c.charged + amt, issues := c.issues + 1
      table := c.table.erase key, grp := some { addr, hdr := h, slot := first, members } }
    (s.issueCounts core h members pc).undefer core

/-- What the header of a thread's next clause comes to: its word, a cause with the PC it is raised at, or a fetch that fails. -/
inductive Hdr where
  | ok (h : DWord)
  | cause (c : Cause) (pc : DWord)
  | fail (f : Fetch)

/-- The fetch of the header of a thread's next clause, and the header's checks (R75, R78). -/
def State.header (s : State) (tid : Nat) : Hdr × State :=
  let pc := (s.th tid).pc
  let hpc := mkPc (pcHeader pc) 0
  match s.fetchWord tid hpc with
  | (.word h, s) =>
    (if !hdrOk h then .cause (cIllClause, h) hpc
     else if hdrCls h = 4 ∧ (s.th tid).lvl = .u then .cause (cPriv, h) hpc
     else if pc.toNat / 2 ^ 61 ≠ 0 ∨ pc.toNat % 8 ≠ 0 ∨ hdrLen h < pcSlot pc then .cause (cIllClause, pc) pc
     else .ok h, s)
  | (f, s) => (.fail f, s)

/-- Threads meet a header that fails: every one takes its cause, or the fetch's failure. -/
def State.headerFail (s : State) (core : Nat) (members : List Nat) : Hdr → State
  | .ok _ => s
  | .cause c at' => members.foldl (fun s t => if s.resident t then s.takeTrap t c.1 c.2 at' else s) s
  | .fail f => s.fetchFail core { addr := pcHeader (s.th (members.headD 0)).pc, hdr := 0, slot := 0, members } f

/-- The threads of an entry begin their clause: the header and its checks (R75, R78), then each member's (R116), then the charge. -/
def State.beginClause (s : State) (core : Nat) (members : List Nat) : State :=
  let pc := (s.th (members.headD 0)).pc
  let addr := pcHeader pc
  match s.header (members.headD 0) with
  | (.ok h, s) =>
    (match s.memberChecks (mkPc addr 0) (pcSlot pc == 0) members with
      | ([], s) => s
      | (ms, s) => s.payIssue core addr (max 1 (pcSlot pc)) h ms pc)
  | (x, s) => s.headerFail core members x

/-- A Ready thread at its clause boundary, apart from an issue (R116): the header's causes come before its own; a group in progress on its core
goes on. -/
def State.boundary (s : State) (tid : Nat) : State :=
  let core := s.coreOf tid
  let pc := (s.th tid).pc
  match s.header tid with
  | (.ok _, s) => (s.memberCheck tid (mkPc (pcHeader pc) 0) (pcSlot pc == 0)).2
  | (x, s) =>
    let t := s.headerFail core [tid] x
    if t.resident tid then t.modCo core fun c => { c with grp := (s.co core).grp } else t

/-- The members of a group whose fault was resolved that still wait, made Ready at their place (R261). -/
def State.wakeGroup (s : State) (g : Group) : List Nat × State :=
  let ms := g.members.filter fun t => s.resident t && (s.th t).st == .stalled && (s.th t).token.isNone
  (ms, ms.foldl (fun s t => s.modTh t fun x => { x with st := .ready, token := none }) s)

/-- A group whose fault is resolved replays its slot, without a new charge; one that met the fault at its header begins its clause (R106, R261). -/
def State.replayGroup (s : State) (core : Nat) (g : Group) : State :=
  let s := s.modCo core fun c => { c with replay := c.replay.erase g }
  let (ms, s) := s.wakeGroup g
  if ms.isEmpty then s
  else if g.hdr = 0 then s.beginClause core ms
  else s.modCo core fun c => { c with grp := some { g with members := ms } }

/-- CLAUSE_ISSUE (R103): a group that has issued replays its slot; else the clause that waits for tokens is tried again, before any other begins (R328);
else a replay begins its clause, or the first entry of the core issues. -/
def State.issueOn (s : State) (core : Nat) : State :=
  if (s.di (coreDie core)).relock ∨ (s.co core).grp.isSome then s
  else match (s.co core).replay.find? (·.hdr != 0) with
    | some g => s.replayGroup core g
    | none =>
      let s := (s.undefer core).fillTable core
      if s.stalledOn core then s.beginClause core (s.stalledAt core)
      else
        let s := s.modCo core fun c => { c with stall := none }
        match (s.co core).replay, s.pickEntry core with
        | g :: _, _ => s.replayGroup core g
        | [], none => s
        | [], some e => s.beginClause core e.members

/-- CLAUSE_ISSUE. -/
def execClauseIssue (core : Nat) (s : State) : Host.Outcome State Fault Refusal := .next (s.issueOn core)

/-! ### Events of one thread -/

/-- The first fault of a grid's threads at a word of spliced code writes the grid's map (R320; log 99): a fault has a cause below BKPT. -/
def State.faultMap (s : State) (tid : Nat) : State :=
  if (s.th tid).tspl && decide ((s.th tid).tcode < cBkpt) && !(s.gridOf tid).mapOut then s.writeMap (s.blkOf tid).gid else s

/-- HANDLER_ENTER (R110, R115): a trapping thread whose flags are all zero enters its handler. -/
def execHandlerEnter (tid : Nat) (s : State) : Host.Outcome State Fault Refusal :=
  .next (if (s.th tid).st = .entering ∧ (s.th tid).flagsZero then (s.faultMap tid).enterHandler tid else s)

/-- HALT_TAKE (R117): at once when Blocked or Fault-stalled, else at the clause boundary (R116). -/
def execHaltTake (tid : Nat) (s : State) : Host.Outcome State Fault Refusal :=
  .next (if s.haltReady tid then (if (s.th tid).st = .ready then s.boundary tid else s.takeHalt tid) else s)

/-- SLEEP_WAKE (R193): the operand time has elapsed; the thread goes on after its `SLEEP`. -/
def execSleepWake (tid : Nat) (s : State) : Host.Outcome State Fault Refusal :=
  .next (match (s.th tid).st, (s.th tid).wait with
    | .blocked, .sleep t next => if t ≤ s.time then s.modTh tid (Thr.pass next) else s
    | _, _ => s)

end Sys2Proof.Machine
end

