-- ==== Sys2Proof/Machine/Lanes.lean ====
section
/-!
DEFINITION. Cross-lane instructions (R179 to R187).
-/
namespace Sys2Proof.Machine

/-- The participants of a cross-lane slot: its active members that are no helpers (R179). -/
def Env.parts (e : Env) : List Nat := e.active.filter fun t => !(e.s0.th t).helper

/-- The active member on a lane: Present or Present helper (R179). -/
def Env.onLane (e : Env) (lane : Nat) : Option Nat := e.active.find? fun t => tidLane t == lane

/-- The words of an operand of a type. -/
def Thr.words (th : Thr) (t : Ty) (o : Opnd) : List Word := th.vals (if t.wide then 2 else 1) o

/-- Source and fill of R181: the value of A on the source lane, or else the thread's own A or C. -/
def fromLane (f : V3) (keep : Bool) (e : Env) (t : Thr) (src : Option Nat) : List Word :=
  match src.bind e.onLane with
  | some u => (e.s0.th u).words f.t f.a
  | none => if keep then t.words f.t f.a else t.words f.t f.c

/-- The source lane of a `SHFL` control word for a lane (R181). -/
def shflLane (ctl lane : Nat) : Option Nat :=
  let seg := 2 ^ min 5 (bitsOf ctl 5 3)
  let ofs := bitsOf ctl 0 5
  let pos := lane % seg
  let base := lane - pos
  match bitsOf ctl 8 2 with
  | 0 => if ofs < seg then some (base + ofs) else none
  | 1 => some (base + (pos + ofs) % seg)
  | 2 => some (base + (pos ^^^ (ofs % seg)))
  | _ =>
    let x : Int := (pos : Int) + sextNat 5 ofs
    if 0 ≤ x ∧ x < (seg : Int) then some (base + x.toNat) else none

/-- The lane that `QSWAP` reads (R182). -/
def qswapLane (mode lane : Nat) : Nat := lane ^^^ (mode + 1)
/-- The lane that `QBC` reads (R182). -/
def qbcLane (mode lane : Nat) : Nat := 4 * (lane / 4) + mode

/-- The lanes of threads, as a mask of the threads that satisfy a test. -/
def maskOf (ts : List Nat) (p : Nat → Bool) : Nat := laneMask (ts.filter p)

/-- The summary word of `VOTE.sum` (R183). -/
def voteSum (e : Env) (a : Opnd) : Nat :=
  let ps := e.parts
  let v (t : Nat) : Word := (e.s0.th t).val a
  let q := ps.filter fun t => (v t).getLsbD 0
  let same := ps.all fun t => v t == v (ps.headD 0)
  let lo := q.foldl (fun m t => min m (tidLane t)) 31
  let hi := q.foldl (fun m t => max m (tidLane t)) 0
  (!q.isEmpty).toNat + 2 * (q.length == ps.length).toNat + 4 * same.toNat + 2 ^ 3 * q.length +
    (if q.isEmpty then 0 else 2 ^ 9 * lo + 2 ^ 14 * hi)

/-- The value that `MATCH` writes to a thread (R184). -/
def matchVal (f : V3) (e : Env) (tid : Nat) : Nat :=
  let ps := e.parts
  let v (t : Nat) : Nat := (e.s0.th t).nat f.t f.a
  let peers := ps.filter fun t => v t == v tid
  if (e.s0.th tid).helper then 0
  else match f.mod.toNat with
    | 0 => laneMask peers
    | 1 => peers.foldl (fun m t => min m (tidLane t)) 31
    | 2 => (peers.filter fun t => tidLane t < tidLane tid).length
    | _ => (ps.map v).eraseDups.length

/-- A reduction over the participants of a list (R185), as words. -/
def reduce (f : V3) (e : Env) (ps : List Nat) : List Word :=
  let t := f.t
  let ns := ps.map fun p => (e.s0.th p).nat t f.a
  let is := ps.map fun p => (e.s0.th p).int t f.a
  let fm := ffmt t
  let pick (max : Bool) : Nat :=
    match ns with
    | [] => fm.ofFV .rne false (.inf max)
    | x :: xs => xs.foldl (fun a b => FFmt.select fm max false a b) x
  match f.mod.toNat % 8 with
  | 0 => if t.floating then outFp t (if ns.isEmpty then 0 else fm.ofFV .rne false (addSum .rne (ns.map fm.val)))
         else outInt t (is.foldl (· + ·) 0)
  | 1 => if t.floating then outFp t (if ns.all (fun x => fm.val x == .nan) && !ns.isEmpty then fm.cnan else pick false)
         else outInt t (is.foldl min (tyMax t))
  | 2 => if t.floating then outFp t (if ns.all (fun x => fm.val x == .nan) && !ns.isEmpty then fm.cnan else pick true)
         else outInt t (is.foldl max (tyMin t))
  | 3 => outInt t ((ns.foldl (· &&& ·) (2 ^ opW t - 1) : Nat) : Int)
  | 4 => outInt t ((ns.foldl (· ||| ·) 0 : Nat) : Int)
  | _ => outInt t ((ns.foldl (· ^^^ ·) 0 : Nat) : Int)

/-- The participants whose values `XSCAN` combines for a thread (R186). -/
def scanParts (f : V3) (e : Env) (tid : Nat) : List Nat :=
  e.parts.filter fun p =>
    if f.mod.getLsbD 3 || (e.s0.th tid).helper then tidLane p < tidLane tid else tidLane p ≤ tidLane tid

/-- The mask of `LMASK` (R187). -/
def lmaskVal (mode : Nat) (e : Env) (tid : Nat) : Nat :=
  let l := tidLane tid
  let lanes (p : Nat → Bool) : Nat := ((upto 32).filter p).foldl (fun m k => m + 2 ^ k) 0
  match mode with
  | 0 => laneMask e.active
  | 1 => laneMask e.grp.members
  | 2 => lanes fun k => e.s0.liveTid (gkTid (tidGk tid) k)
  | 3 => lanes fun k => decide (k < l)
  | 4 => lanes fun k => decide (k ≤ l)
  | 5 => lanes fun k => decide (k > l)
  | 6 => lanes fun k => decide (k ≥ l)
  | _ => laneMask e.parts

/-- `SHFL` (R181). -/
def execShfl (f : V3) (s : State) : Host.Outcome State Fault Refusal :=
  runV3 (.shfl f) f (fun e tid t => fromLane f (f.mod.getLsbD 0) e t (shflLane (t.val f.b).toNat (tidLane tid))) s

/-- `QSWAP` (R182). -/
def execQswap (f : V3) (s : State) : Host.Outcome State Fault Refusal :=
  runV3 (.qswap f) f (fun e tid t => fromLane f false e t (some (qswapLane f.mod.toNat (tidLane tid)))) s

/-- `QBC` (R182). -/
def execQbc (f : V3) (s : State) : Host.Outcome State Fault Refusal :=
  runV3 (.qbc f) f (fun e tid t => fromLane f false e t (some (qbcLane f.mod.toNat (tidLane tid)))) s

/-- `VOTE` (R183). -/
def execVote (f : V3) (s : State) : Host.Outcome State Fault Refusal :=
  runV3 (.vote f) f (fun e _ _ => [.ofNat 32 (if f.mod = 0 then voteSum e f.a
    else maskOf e.parts fun t => ((e.s0.th t).val f.a).getLsbD 0)]) s

/-- `MATCH` (R184). -/
def execMatchV (f : V3) (s : State) : Host.Outcome State Fault Refusal :=
  runV3 (.matchV f) f (fun e tid _ => [.ofNat 32 (matchVal f e tid)]) s

/-- `XRED` (R185). -/
def execXred (f : V3) (s : State) : Host.Outcome State Fault Refusal :=
  runV3 (.xred f) f (fun e _ _ => reduce f e e.parts) s

/-- `XSCAN` (R186). -/
def execXscan (f : V3) (s : State) : Host.Outcome State Fault Refusal :=
  runV3 (.xscan f) f (fun e tid _ => reduce f e (scanParts f e tid)) s

/-- `LMASK` (R187). -/
def execLmask (f : V3) (s : State) : Host.Outcome State Fault Refusal :=
  runV3 (.lmask f) f (fun e tid _ => [.ofNat 32 (lmaskVal f.mod.toNat e tid)]) s

end Sys2Proof.Machine
end

