-- ==== Sys2Proof/Machine/Tile.lean ====
section
/-!
DEFINITION. Tiles and the matrix unit (R287 to R299): fragments, the whole-gang product (R134), join rounds, and codebook loads.
-/
namespace Sys2Proof.Machine

/-! ### Shapes and fragments (R287, R289) -/

/-- m, n and k of a shape. -/
def shapeDims (shape : Nat) : Nat × Nat × Nat :=
  match shape with
  | 0 => (16, 8, 8)
  | 1 => (16, 8, 16)
  | 2 | 3 => (16, 16, 32)
  | 7 => (16, 16, 128)
  | _ => (16, 16, 64)

/-- Bits of an input element of a shape; CB4 has 4. -/
def shapeBits (shape : Nat) : Nat :=
  match shape with
  | 0 => 64
  | 1 => 32
  | 2 | 3 => 16
  | 7 => 4
  | _ => 8

/-- The type of an input element of a shape; CB4 elements are BF16 entries. -/
def shapeTy (shape : Nat) : Ty :=
  match shape with
  | 0 => .f64 | 1 => .f32 | 2 => .bf16 | 3 => .f16 | 4 => .e4m3 | 5 => .e5m2 | 6 => .s8 | _ => .bf16

/-- The type of an accumulator element. -/
def accTy (shape : Nat) : Ty := if shape = 0 then .f64 else if shape = 6 then .s32 else .f32

/-- Lane and position of element (m, k) of A. -/
def posA (shape m k : Nat) : Nat × Nat := let ka := (shapeDims shape).2.2 / 2; (m + 16 * (k / ka), k % ka)
/-- Lane and position of element (k, n) of B. -/
def posB (shape k n : Nat) : Nat × Nat :=
  let nn := (shapeDims shape).2.1
  let kb := (shapeDims shape).2.2 * nn / 32
  (n + nn * (k / kb), k % kb)
/-- Lane and position of element (m, n) of the accumulator. -/
def posC (shape m n : Nat) : Nat × Nat := let h := (shapeDims shape).2.1 / 2; (m + 16 * (n / h), n % h)

/-- Element `p` of a fragment of elements of `bits` bits. -/
def fragElem (frag bits p : Nat) : Nat := bitsOf frag (bits * p) bits

/-- Words as one number, the first lowest. -/
def wordsNat (ws : List Word) : Nat := ws.foldr (fun w x => w.toNat + 2 ^ 32 * x) 0

/-! ### Captured operands (R296) -/

/-- Register `r` of a thread as an operation captures it: the value of the latest pending matrix operation that writes it, else what
it holds. -/
def Thr.mmaReg (t : Thr) (r : Nat) : Word :=
  t.pend.foldl (fun v p => match p.src, p.dst with
    | .mma _, .reg n => if n.val ≤ r ∧ r < n.val + p.vals.length then p.vals.getD (r - n.val) v else v
    | _, _ => v) (t.reg r)

/-- A fragment operand of `n` registers as a number. -/
def Thr.frag (t : Thr) (o : Opnd) (n : Nat) : Nat :=
  match o with
  | .reg r => wordsNat ((upto n).map fun i => t.mmaReg (r.val + i))
  | _ => 0

/-- What a round captured of one lane: fragments, scale register, and the slot selector. -/
structure LaneFrag where
  a : Nat
  b : Nat
  c : Nat
  scale : Nat

/-- The operands of a round (R292, R295). -/
structure Round where
  shape : Nat
  bs : Nat
  useScale : Bool
  lanes : List (Nat × LaneFrag)
  cbA : Nat
  cbB : Nat
  cb : Tbl Half

/-- A lane's fragments; a lane outside the signers has none. -/
def Round.lane (r : Round) (l : Nat) : Option LaneFrag := (r.lanes.find? (·.1 == l)).map (·.2)

/-- The value of an input element; zero from a lane outside the signers. -/
def Round.elem (r : Round) (slot : Nat) (pos : Nat × Nat) (sel : LaneFrag → Nat) : FV :=
  match r.lane pos.1 with
  | none => .fin false 0 0
  | some f =>
    let x := fragElem (sel f) (shapeBits r.shape) pos.2
    if r.shape = 7 then (ffmt .bf16).val (Tbl.get 0 r.cb (16 * slot + x)).toNat else (ffmt (shapeTy r.shape)).val x

/-- The scale byte of a block (R131, R132): its exponent; none for NaN. -/
def Round.scale (r : Round) (row kb : Nat) (isB : Bool) : Option Int :=
  if !r.useScale then some 0
  else match r.lane (row + 16 * (kb % 2)) with
    | none => some 0
    | some f =>
      let byte := r.bs + kb / 2 + (if isB then (shapeDims r.shape).2.2 / 64 else 0)
      let e := bitsOf f.scale (8 * byte) 8
      if e = 255 then none else some ((e : Int) - 127)

/-- A block's term: its exact sum, scaled (R134). -/
def Round.block (r : Round) (m n kb : Nat) : FV :=
  let p := exactSum false ((upto 32).map fun i =>
    let k := 32 * kb + i
    (r.elem r.cbA (posA r.shape m k) (·.a)).mul (r.elem r.cbB (posB r.shape k n) (·.b)))
  match r.scale m kb false, r.scale n kb true with
  | some x, some y => p.scale (x + y)
  | _, _ => .nan

/-- The old accumulator element, as bits. -/
def Round.old (r : Round) (m n : Nat) : Nat :=
  let pos := posC r.shape m n
  match r.lane pos.1 with
  | none => 0
  | some f => fragElem f.c (if r.shape = 0 then 64 else 32) pos.2

/-- D[m, n] of R134, as bits. -/
def Round.out (r : Round) (m n : Nat) : Nat :=
  let k := (shapeDims r.shape).2.2
  if r.shape = 6 then
    let e (pos : Nat × Nat) (sel : LaneFrag → Nat) : Int :=
      match r.lane pos.1 with
      | none => 0
      | some f => sextNat 8 (fragElem (sel f) 8 pos.2)
    wrapN 32 ((upto k).foldl (fun (s : Int) i => s + e (posA 6 m i) (·.a) * e (posB 6 i n) (·.b)) (r.old m n : Int))
  else
    let fm := ffmt (accTy r.shape)
    let terms := if r.shape = 4 ∨ r.shape = 5 ∨ r.shape = 7 then (upto (k / 32)).map fun kb => r.block m n kb
      else (upto k).map fun i => (r.elem 0 (posA r.shape m i) (·.a)).mul (r.elem 0 (posB r.shape i n) (·.b))
    fm.ofFV .rne false (addSum .rne (fm.val (r.old m n) :: terms))

/-- The words of a lane's accumulator fragment after the operation. -/
def Round.laneOut (r : Round) (lane : Nat) : List Word :=
  let h := (shapeDims r.shape).2.1 / 2
  (upto h).flatMap fun p =>
    let x := r.out (lane % 16) (h * (lane / 16) + p)
    if r.shape = 0 then words64 (.ofNat 64 x) else [.ofNat 32 x]

/-! ### Join rounds (R111, R112, R293 to R297) -/

/-- A join register of a gang. -/
def Gang.join (g : Gang) (j : Nat) : Join := g.joins.getD j {}
/-- A join register replaced. -/
def State.setJoin (s : State) (gk j : Nat) (x : Join) : State := s.modGg gk fun g => { g with joins := setAt {} g.joins j x }

/-- The lanes of a gang that hold a thread that was launched and has not exited. -/
def State.liveMask (s : State) (gk : Nat) : Nat :=
  ((upto 32).filter fun l => s.liveTid (gkTid gk l)).foldl (fun m l => m + 2 ^ l) 0

/-- The threads of a gang on the lanes of a mask. -/
def maskTids (gk mask : Nat) : List Nat := ((upto 32).filter fun l => mask.testBit l).map (gkTid gk)

/-- Threads Blocked at an `MMA` on a join register are made Ready at that slot (R293). -/
def State.releaseJoin (s : State) (gk j : Nat) : State :=
  (gangTids gk).foldl (fun s t => if (s.th t).st = .blocked ∧ (s.th t).wait = .join j then
    s.modTh t fun x => { x with st := .ready, wait := .none } else s) s

/-- The matrix unit of a core has a place (R288): none in progress, or fewer than 4 waiting. -/
def Core.muRoom (c : Core) : Bool := decide (c.mu.length < 5)

/-- The operands that a round captures (R296). -/
def State.capture (s : State) (gk : Nat) (f : Tl) (tids : List Nat) : Round :=
  let sh := f.shape.toNat
  let n := fragRegs sh
  let low := s.th (tids.headD 0)
  let sel : Nat := match f.c with | .reg r => if sh = 7 then (low.mmaReg (r.val + 1)).toNat else 0 | _ => 0
  { shape := sh, bs := f.bs.toNat
    useScale := (sh == 4 || sh == 5 || sh == 7) && f.bs.toNat != 4
    lanes := tids.map fun t =>
      let th := s.th t
      (tidLane t, { a := th.frag f.a n.2.1, b := th.frag f.b n.2.2, c := th.frag f.d n.1, scale := th.frag f.c 1 })
    cbA := bitsOf sel 0 4, cbB := bitsOf sel 4 4, cb := (s.gg gk).cb }

/-- The registers that an `MMA` captures (R292): of C, with CB4 and unit scales, the slot selector alone. -/
def mmaRegs (f : Tl) : List Nat :=
  let n := fragRegs f.shape.toNat
  let regs (o : Opnd) (n : Nat) : List Nat := match o with | .reg r => (upto n).map (r.val + ·) | _ => []
  regs f.d n.1 ++ regs f.a n.2.1 ++ regs f.b n.2.2 ++
    (if !f.usesC then [] else if f.shape = 7 then (regs f.c 2).drop (f.bs == 4).toNat else regs f.c 1)

/-- What the issue of a round comes to. -/
inductive Issue where
  /-- It issued. -/
  | issued (s : State)
  /-- It waits for a place or for room in a flag. -/
  | wait (s : State)
  /-- A captured word is in error (R297). -/
  | bad (s : State) (traps : List (Nat × Cause))

/-- A signer that is not at the slot goes on when its round issues (R295): a Blocked one becomes Ready, a Halted one stays Halted; one in its handler
resumes after the slot (log 96). -/
def Thr.passRound (r : Join) (t : Thr) : Thr :=
  if t.inh then (if some t.tpc = r.rpc then { t with tpc := r.next, shadow := t.shadow.map (·.ended r.next) } else t)
  else if t.st = .halted then { t with pc := r.next, latches := t.latches.map (·.ended r.next) }
  else t.pass r.next

/-- The Halted signers of a round that does not issue are Ready at its slot, as every signer is (R297). -/
def State.releaseHalted (s : State) (r : Join) (tids : List Nat) : State :=
  tids.foldl (fun s t => let x := s.th t
    if x.st = .halted ∧ some x.pc = r.rpc then s.setTh t { x with st := .ready } else s) s

/-- A round does not issue, for errors in captured words (R297): the signed mask is cleared, the signers are Ready at the slot, and those that are not in
the issue group take their causes; one in its handler meets the error when it signs again (log 96). -/
def State.spoilRound (s : State) (gk j : Nat) (group : List Nat) (ecc : List (Nat × Cause)) : State :=
  let r := (s.gg gk).join j
  let s := s.setJoin gk j { r with signed := 0, issuing := false, rpc := none, ins := none }
  let s := (s.releaseJoin gk j).releaseHalted r (maskTids gk r.signed)
  (ecc.filter fun x => !group.contains x.1 && !(s.th x.1).inh).foldl (fun s x => s.takeTrap x.1 x.2.1 x.2.2 (s.th x.1).pc) s

/-- Issue of a complete round (R295 to R297).  Signers in `group` are at the slot; the others are Blocked or Halted there.  The capture waits for its
place, and corrects what it finds correctable (R118). -/
def State.issueRound (s : State) (gk j : Nat) (group : List Nat) : Issue :=
  let r := (s.gg gk).join j
  let tids := maskTids gk r.signed
  let core := s.coreOf (gkTid gk 0)
  match r.ins with
  | none => .wait s
  | some (f, flag) =>
    if !(s.co core).muRoom ∨ tids.any (fun t => (s.th t).flag flag ≥ 63) then .wait (s.setJoin gk j { r with issuing := true })
    else
      let s := s.markLatent core tids tids (mmaRegs f)
      let ecc := eccTraps s tids (mmaRegs f)
      if !ecc.isEmpty then .bad (s.spoilRound gk j group ecc) (ecc.filter fun x => group.contains x.1)
      else
        let round := s.capture gk f tids
        let lastT := s.th r.last
        let gslot := s.threadLid r.last / 64 % 64
        let (id, s) := s.newEdge (coreDie core) (s.cidOf r.last)
          { kind := 5, waiter := if tids.length = 1 then s.threadLid r.last else noLid, prod := s.threadLid r.last,
            obj := j + 8 * gslot + 512 * core, pred := lastT.edge }
        let num := (s.co core).muCtr
        let s := tids.foldl (fun s t => s.modTh t fun x =>
          let x := { x.count flag with
            edge := id, pend := x.pend ++ [{ flag, dst := f.d, vals := round.laneOut (tidLane t), src := .mma num }] }
          if group.contains t then x else x.passRound r) s
        let s := s.setJoin gk j { r with signed := 0, issuing := false, rpc := none, ins := none }
        .issued (s.modCo core fun c =>
          { c with muCtr := num + 1, mu := c.mu ++ [{ num, outs := tids }], muBusy := true
                   parked := c.parked.filterMap fun g => if some g.pc = r.rpc then g.keep fun t => !tids.contains t else some g })

/-- Every member has signed. -/
def Join.complete (r : Join) : Bool := r.decl && r.signed != 0 && (r.members &&& r.signed) == r.members

/-- A complete round issues when it can, apart from any slot. -/
def State.tryRound (s : State) (gk j : Nat) : State :=
  if ((s.gg gk).join j).complete then
    match s.issueRound gk j [] with
    | .issued s | .wait s | .bad s _ => s
  else s

/-- A lane leaves the member sets of its gang (R112). -/
def State.leaveJoins (s : State) (tid : Nat) : State :=
  let gk := tidGk tid
  let bit := 2 ^ tidLane tid
  (upto 8).foldl (fun s j =>
    let r := (s.gg gk).join j
    if r.decl ∧ r.members.testBit (tidLane tid) then
      let m := r.members - bit
      let sg := if r.signed.testBit (tidLane tid) then r.signed - bit else r.signed
      if m = 0 then s.setJoin gk j {}
      else if sg = 0 then s.setJoin gk j { decl := true, members := m }
      else (s.setJoin gk j { r with members := m, signed := sg }).tryRound gk j
    else s) s

/-- The member set of a join register declared (R111, R293): an empty set leaves it Undeclared. -/
def State.declare (s : State) (gk j mask signed : Nat) : State :=
  let m := mask &&& s.liveMask gk
  (s.setJoin gk j (if m = 0 then {} else { decl := true, members := m, signed := signed &&& m })).releaseJoin gk j

/-- `JSET` (R293): once per slot for the gang, with A of its lowest active lane.  While the register is Issuing the slot stalls, and the round tries again. -/
def execJset (f : Tl) (s : State) : Host.Outcome State Fault Refusal :=
  runWord (.jset f) (fun e tid s =>
    if e.active.head? ≠ some tid then .done s
    else if ((s.gg (tidGk tid)).join f.j.toNat).issuing then .hold (s.tryRound (tidGk tid) f.j.toNat)
    else .done (s.declare (tidGk tid) f.j.toNat ((e.s0.th tid).val f.a).toNat 0)) s

/-- `JCLR` (R293). -/
def execJclr (f : Tl) (s : State) : Host.Outcome State Fault Refusal :=
  runWord (.jclr f) (fun e tid s =>
    if e.active.head? ≠ some tid then .done s
    else if ((s.gg (tidGk tid)).join f.j.toNat).issuing then .hold (s.tryRound (tidGk tid) f.j.toNat)
    else .done ((s.setJoin (tidGk tid) f.j.toNat {}).releaseJoin (tidGk tid) f.j.toNat)) s

/-- The PC that a round is held to (R112, R294): its own, or after a restore the saved PC of its lowest signed lane. -/
def State.roundPc (s : State) (gk : Nat) (r : Join) : Option DWord :=
  if r.signed = 0 then none
  else match r.rpc with
  | some pc => some pc
  | none => (maskTids gk r.signed).head?.map fun t => if (s.th t).inh then (s.th t).tpc else (s.th t).pc

/-- A member's signature (R295). -/
def signMma (f : Tl) (e : Env) (tid : Nat) (s : State) : Lane :=
  let gk := tidGk tid
  let r := (s.gg gk).join f.j.toNat
  if !r.decl || !r.members.testBit (tidLane tid) then .trap (cJoinUnset, .ofNat 64 f.j.toNat)
  else match s.roundPc gk r with
    | some pc => if pc ≠ e.grp.pc then .trap (cDiverged, e.grp.pc) else if r.issuing then .done s else sign gk r
    | none => sign gk r
where
  /-- The signature recorded. -/
  sign (gk : Nat) (r : Join) : Lane :=
    .done (s.setJoin gk f.j.toNat { r with
      signed := r.signed ||| 2 ^ tidLane tid, rpc := some e.grp.pc, next := e.grp.nextPc, last := tid
      ins := some (f, (hdrFlag e.grp.hdr f.fs).getD 0) })

/-- The signers of a slot leave it Blocked, or Ready to sign again. -/
def Acc.leaveMma (a : Acc) (e : Env) (f : Tl) (st : TSt) : Acc :=
  { a with
    s := e.active.foldl (fun s t => s.modTh t fun x =>
      if x.st = .ready then { x with st, pc := e.grp.pc, wait := if st = .blocked then .join f.j.toNat else .none } else x) a.s
    left := a.left ++ e.active, gone := a.gone ++ e.active }

/-- After the group's signatures (R295): a complete round issues, or stays Issuing and stalls the group (R288); otherwise the signers
are Blocked at the slot.  Where a signer of the group is in error, the slot traps as any (R106, R297). -/
def finMma (f : Tl) (e : Env) (a : Acc) : Acc :=
  match e.active with
  | [] => a
  | t :: _ =>
    if !a.traps.isEmpty then a
    else
      let gk := tidGk t
      if ((a.s.gg gk).join f.j.toNat).complete then
        match a.s.issueRound gk f.j.toNat e.active with
        | .issued s => { a with s }
        | .wait s => { a with s, hold := true }
        | .bad s [] => Acc.leaveMma { a with s } e f .ready
        | .bad s traps => { a with s := s.slotTrap e.core e.grp traps, hold := true }
      else a.leaveMma e f .blocked

/-- `MMA` (R295). -/
def execMma (f : Tl) (s : State) : Host.Outcome State Fault Refusal :=
  runWord (.mma f) (signMma f) s (finMma f)

/-- `CBLD` (R299). -/
def execCbld (f : Tl) (s : State) : Host.Outcome State Fault Refusal :=
  runWord (.cbld f) (fun e tid s =>
    if tidLane tid < 8 then
      let x := ((e.s0.th tid).val f.a).toNat
      let k := 16 * f.shape.toNat + 2 * tidLane tid
      .done (s.modGg (tidGk tid) fun g =>
        { g with cb := Tbl.set 0 (Tbl.set 0 g.cb k (.ofNat 16 x)) (k + 1) (.ofNat 16 (x / 2 ^ 16)) })
    else .done s) s

/-! ### The matrix unit's events (R288, R295) -/

/-- The results of an operation for a thread: its fragment is written and the flag falls. -/
def Thr.finishMma (num : Nat) (t : Thr) : Thr :=
  match t.pend.find? fun p => p.src == Src.mma num with
  | none => t
  | some p => ({ t with pend := t.pend.filter fun q => q.src != Src.mma num }.write p.dst p.vals).uncount p.flag

/-- The registers that the result of an operation is written to. -/
def Thr.mmaDst (num : Nat) (t : Thr) : List Nat :=
  match t.pend.find? fun p => p.src == Src.mma num with
  | some p => (match p.dst with | .reg r => (upto p.vals.length).map (r.val + ·) | _ => [])
  | none => []

/-- A round stands complete and Issuing, with no signer at its slot that would try it again: those of a core, as (gang, register). -/
def State.heldRounds (s : State) (core : Nat) : List (Nat × Nat) :=
  let at' : List Nat := ((s.co core).grp.toList ++ (s.co core).parked).flatMap (·.members)
  (s.gangsOn core).flatMap fun gk => ((upto 8).filter fun j =>
    let r := (s.gg gk).join j
    r.issuing && r.complete && !(at'.any fun t => tidGk t == gk && r.signed.testBit (tidLane t))).map fun j => (gk, j)

/-- MATRIX_UNIT_START (R288): the operation in progress has held the unit for its cycles, and the next one starts; rounds that stay Issuing on the
core try again (R111, R112). -/
def execMatrixUnitStart (core : Nat) (s : State) : Host.Outcome State Fault Refusal :=
  .next (
    let s := match (s.co core).mu with
      | [] => s
      | op :: rest => s.modCo core fun c => { c with mu := rest, muBusy := !rest.isEmpty, muOut := c.muOut ++ [op] }
    (s.heldRounds core).foldl (fun s x => s.tryRound x.1 x.2) s)

/-- MMA_COMPLETE (R295): the oldest started operation writes the fragments of its signers; words written in both lanes are sound again (R118). -/
def execMmaComplete (core : Nat) (s : State) : Host.Outcome State Fault Refusal :=
  .next (match (s.co core).muOut with
    | [] => s
    | op :: rest =>
      let s := s.modCo core fun c => { c with muOut := rest }
      let regs := (op.outs.flatMap fun t => (s.th t).mmaDst op.num).eraseDups
      (op.outs.foldl (fun s t => s.modRes t (Thr.finishMma op.num)) s).clearPoison (op.outs.filter s.resident) regs)

end Sys2Proof.Machine
end

