-- ==== Sys2Proof/Machine/Control.lean ====
section
/-!
DEFINITION. Control instructions (R91, R188 to R196) and the end of a thread (R110, R112, R191).
-/
namespace Sys2Proof.Machine

/-- The RAS kind under which an error pending at `EXIT` is logged: poison, or link for the fabric (log 21). -/
def errKind (code : Nat) : Nat := if code = cEccMem then 4 else 8

/-- An error that no trap raises any more goes to the fault queue and the RAS log (R229). -/
def State.exitErr (s : State) (tid : Nat) (e : DErr) : State :=
  (s.errRec tid e).ras (errKind e.code) 0 (s.coreOf tid) e.va

/-- A thread exits (R102, R110, R112, R191): its pending errors are recorded, held requests are discarded, and it leaves the join
registers. -/
def State.exitThread (s : State) (tid : Nat) : State :=
  let s := (s.th tid).errs.foldl (fun s e => s.exitErr tid e) s
  let s := if (s.th tid).helper then s else s.setBk (tidBlk tid) { s.bk (tidBlk tid) with lastTid := tid }
  (s.modTh tid fun t => { t with
    st := .exited, inh := false, errs := [], halt := none, preempt := none, wait := .none, deferred := false, stepping := false
    stepDue := false, hlt := false, save := .none }).leaveJoins tid

/-- The base 2 logarithm of a context's sampling interval, when slots of the kind are counted (R394, R402): whether or not tracing is on. -/
def State.sampleLog (s : State) (tid : Option Nat) (call : Bool) : Option Nat :=
  (tid.bind fun t => s.traceSet (s.cidOf t)).bind fun w =>
    if w.testBit 2 && (!call || w.testBit 4) then some (min 20 (bitsOf w 16 8)) else none

/-- A slot of a thread is counted on its core (R402); whether it is sampled. -/
def State.countOn (s : State) (core : Nat) (tid : Option Nat) (call : Bool) : Bool × State :=
  match s.sampleLog tid call with
  | none => (false, s)
  | some k =>
    let n := (s.co core).samples + 1
    (n % 2 ^ k == 0, s.modCo core fun c => { c with samples := if n % 2 ^ k = 0 then 0 else n })

/-- A slot is counted, and its threads' context decides whether it is sampled. -/
def State.countSlot (call : Bool) (e : Env) (s : State) : Bool × State := s.countOn e.core e.active.head? call

/-- The record of a sample is written, with the lane whose data returned last (R402); the times in queues are physical quantities (log 14). -/
def State.writeSample (s : State) (x : Sample) (last : Nat) : State :=
  let (q1, s) := s.free
  let (q2, s) := s.free
  let w (i : Nat) : Nat := x.words.getD i 0
  s.traceWrite x.cid
    [[w 0 + last * 2 ^ 47, w 1, w 2, w 3], [w 4, q1.toNat, q2.toNat / 2 ^ 48 * 2 ^ 48 + s.time % 2 ^ 32, w 5], [w 6, 0, 0, 0]]

/-- The sample of a slot (R389, R402): the thread on its lowest active lane is named; `tok` is the slot's mark on pending results. -/
def State.sampleOf (s : State) (e : Env) (t opk addr sectors tok : Nat) : Sample :=
  let (_, kid, opc) := s.original t e.grp.pc
  let g := s.gridOf t
  { tok, tids := e.active, cid := s.cidOf t, lane := tidLane t
    words := [5 * 2 ^ 56 + opk * 2 ^ 52 + tidLane t * 2 ^ 42 + tidGang t * 2 ^ 37 + laneMask e.active,
      g.num * 2 ^ 32 + sectors % 2 ^ 16 * 2 ^ 16 + min e.grp.replays 255 * 2 ^ 8, g.linear (s.blkOf t), e.grp.pc.toNat, opc.toNat,
      addr % 2 ^ 56, kid.toNat] }

/-- `CALL`, `BRX` and `RET` slots are counted, and a sampled one is recorded at once (R402). -/
def State.sampleCall (s : State) (e : Env) (opk : Nat) (target : Nat) : State :=
  match e.active, s.countSlot true e with
  | t :: _, (true, s) => s.writeSample (s.sampleOf e t opk target 0 0) (tidLane t)
  | _, (_, s) => s

/-- The target of a branch word (R189): its own address plus 8 × OFF22. -/
def branchTarget (g : Group) (off : BitVec 22) : DWord :=
  mkPc (wrapN 56 (((g.addr + 8 * g.slot : Nat) : Int) + 8 * off.toInt)) 0

/-- A jump to the address in a pair (R190): ACCESS above the 56-bit space, MISALIGN off a word. -/
def jumpReg (a : Opnd) (e : Env) (tid : Nat) (s : State) : Lane :=
  let x := (e.s0.th tid).val64 a
  if x.toNat / 2 ^ 56 ≠ 0 then .trap (cAccess, x)
  else if x.toNat % 8 ≠ 0 then .trap (cMisalign, x)
  else .jump s (mkPc x.toNat 0)

/-- A transfer's slot is sampled once for the group, after the members' steps. -/
def finCall (opk : Nat) (tgt : Env → Nat → Nat) (e : Env) (a : Acc) : Acc :=
  if a.traps.isEmpty then { a with s := a.s.sampleCall e opk (tgt e (e.active.headD 0)) } else a

/-- A transfer's slot that traps is counted, and no sample is written (R402). -/
def countCall (e : Env) (s : State) : State := (s.countSlot true e).2

/-- `NOP` (R91). -/
def execNop (f : Sy) (s : State) : Host.Outcome State Fault Refusal := runWord (.nop f) (fun _ _ s => .done s) s

/-- `BRA` (R189). -/
def execBra (f : Br) (s : State) : Host.Outcome State Fault Refusal :=
  runWord (.bra f) (fun e _ s => .jump s (branchTarget e.grp f.off)) s

/-- `CALL` (R189): the link is the address of the word after the clause. -/
def execCall (f : Br) (s : State) : Host.Outcome State Fault Refusal :=
  runWord (.call f) (fun e tid s =>
    .jump (s.modTh tid fun t => t.write f.a (words64 (.ofNat 64 (pcAddr e.grp.nextPc)))) (branchTarget e.grp f.off)) s
    (finCall 5 fun e _ => pcAddr (branchTarget e.grp f.off)) countCall

/-- `BRX` (R190). -/
def execBrx (f : V3) (s : State) : Host.Outcome State Fault Refusal :=
  runWord (.brx f) (jumpReg f.a) s (finCall 6 fun e t => ((e.s0.th t).val64 f.a).toNat) countCall

/-- `RET` (R190). -/
def execRet (f : V3) (s : State) : Host.Outcome State Fault Refusal :=
  runWord (.ret f) (jumpReg f.a) s (finCall 7 fun e t => ((e.s0.th t).val64 f.a).toNat) countCall

/-- `EXIT` (R191). -/
def execExit (f : Sy) (s : State) : Host.Outcome State Fault Refusal :=
  runWord (.exit f) (fun _ tid s => .leave (s.exitThread tid)) s

/-- `YIELD` (R192, R107). -/
def execYield (f : Sy) (s : State) : Host.Outcome State Fault Refusal :=
  runWord (.yield f) (fun _ tid s => .done (s.modTh tid fun t => { t with deferred := true })) s fun e a =>
    { a with s := (e.active.map tidGk).eraseDups.foldl State.undeferGang a.s }

/-- `SLEEP` (R193). -/
def execSleep (f : I24) (s : State) : Host.Outcome State Fault Refusal :=
  runWord (.sleep f) (fun e tid s =>
    let d : Int := ((e.s0.th tid).val f.a).toNat + f.imm.toInt
    if d ≤ 0 then .done s else .block s (.sleep (s.time + d.toNat) e.grp.nextPc)) s

/-- The handler is entered after the instruction has completed (R194): the slot's end first, then the trap at the next PC. -/
def completeThenTrap (code n : Nat) (e : Env) (tid : Nat) (s : State) : State :=
  (s.modTh tid (Thr.endSlot e.grp false)).takeTrap tid code (.ofNat 64 n) e.grp.nextPc

/-- A member leaves the slot by a step of its own; one whose context an earlier member has made Faulted is gone (R116). -/
def leaveBy (act : State → State) (tid : Nat) (s : State) : Lane := if s.resident tid then .leave (act s) else .done s

/-- A slot in which a context became Faulted (R116) ends with its cores reclaimed: no group goes on. -/
def finReclaim (e : Env) (a : Acc) : Acc := if e.active.all a.s.resident then a else { a with hold := true }

/-- `TRAP` (R194). -/
def execTrap (f : Sy) (s : State) : Host.Outcome State Fault Refusal :=
  runWord (.trap f) (fun e tid => leaveBy (completeThenTrap cSoft f.sel.toNat e tid) tid) s finReclaim

/-- Breakpoints of a context go to the debugger (R391). -/
def State.bkptToDebugger (s : State) (cid : Nat) : Bool :=
  match s.traceCtl cid with
  | some w => w.testBit 3
  | none => false

/-- `BKPT` (R194): into the handler, or a stop-form halt when breakpoints go to the debugger. -/
def execBkpt (f : Sy) (s : State) : Host.Outcome State Fault Refusal :=
  runWord (.bkpt f) (fun e tid => leaveBy (fun s =>
    if s.bkptToDebugger (s.cidOf tid) && !(s.th tid).inh then
      (s.modTh tid (Thr.endSlot e.grp false)).stopThread tid 2 f.sel.toNat
    else completeThenTrap cBkpt f.sel.toNat e tid s) tid) s finReclaim

/-- A thread's name as one number (R389): grid number, linear block index, gang and lane. -/
def State.thrName (s : State) (tid : Nat) : Nat :=
  tidSlot tid + 2 ^ 32 * (s.gridOf tid).num + 2 ^ 64 * (s.gridOf tid).linear (s.blkOf tid)

/-- `STEP` (R195): each member that is no helper delivers a step mark to the Scribe. -/
def execStep (f : Sy) (s : State) : Host.Outcome State Fault Refusal :=
  runWord (.step f) (fun e tid s =>
    let t := e.s0.th tid
    .done (if t.helper then s else { s with agenda := s.agenda ++
      [.event (.stepMarkArrive (s.cidOf tid) (t.val64 f.a) t.edge (s.thrName tid))] })) s

/-- The user record of `TRACEW` (R396). -/
def State.userRec (s : State) (tid tag data : Nat) : List Nat :=
  [2 * 2 ^ 56 + tag % 2 ^ 16 * 2 ^ 40 + (s.th tid).helper.toNat * 2 ^ 39 + tidGang tid * 2 ^ 34 + tidLane tid * 2 ^ 29, data,
   (s.gridOf tid).linear (s.blkOf tid), (s.gridOf tid).num * 2 ^ 32 + s.time % 2 ^ 32]

/-- `TRACEW` (R196). -/
def execTracew (f : V3) (s : State) : Host.Outcome State Fault Refusal :=
  runWord (.tracew f) (fun e tid s =>
    let t := e.s0.th tid
    .done (s.traceWrite (s.cidOf tid) [s.userRec tid (t.val f.a).toNat (t.nat f.t f.b)])) s

end Sys2Proof.Machine
end

