-- ==== Sys2Proof/Machine/System.lean ====
section
/-!
DEFINITION. System instructions (R197 to R206): special values, trap state, the return from a handler, thread-state words, halts and
translation removal.
-/
namespace Sys2Proof.Machine

/-- The thread is a helper, whose coordinates are x = its index and y = z = 0 (R198). -/
def tidCoord (g : Grid) (helper : Bool) (slot axis : Nat) : Nat :=
  if helper then (if axis = 0 then slot else 0)
  else match axis with
    | 0 => slot % g.bdx
    | 1 => slot / g.bdx % g.bdy
    | _ => slot / (g.bdx * g.bdy)

/-- `TCAUSE` (R114). -/
def Thr.tcause (t : Thr) : DWord := .ofNat 64 (t.tcode + 2 ^ 8 * t.tspl.toNat + 2 ^ 9 * t.thlp.toNat)
/-- `TSTAT` (R114). -/
def Thr.tstat (t : Thr) : DWord := .ofNat 64 (t.pp + 4 * t.inh.toNat)

/-- The threads of a context that are resident. -/
def State.ctxTids (s : State) (cid : Nat) : List Nat :=
  ((s.thr.map (·.1)).filter fun t => s.resident t && s.cidOf t == cid)

/-- `%hpend` (R198): threads named by halt requests of a context that have not yet halted, exited or taken HALT. -/
def State.hpend (s : State) (cid : Nat) : Nat := ((s.ctxTids cid).filter fun t => (s.th t).halt.isSome).length

/-- `KID` of the kernel that owns the executing slot (R198). -/
def State.kidOf (s : State) (tid : Nat) (pc : DWord) : DWord :=
  if (s.th tid).inh then (s.th tid).tkid else (s.original tid pc).2.1

/-- The stored charge of the package (R337): the sum of its dies' samples. -/
def State.chargePkg (s : State) : Nat := (s.di 0).charge + (s.di 1).charge + (s.di 2).charge + (s.di 3).charge

/-- A special value (R198). -/
def State.special (s : State) (tid sel : Nat) (pc : DWord) : DWord :=
  let t := s.th tid
  let g := s.gridOf tid
  let b := s.blkOf tid
  let n (x : Nat) : DWord := .ofNat 64 x
  match sel with
  | 0x00 => n (tidLane tid)
  | 0x01 => n (tidLane tid / 4)
  | 0x02 => n (tidGang tid)
  | 0x03 => n (tidSlot tid)
  | 0x04 => n t.helper.toNat
  | 0x08 => n (tidCoord g t.helper (tidSlot tid) 0)
  | 0x09 => n (tidCoord g t.helper (tidSlot tid) 1)
  | 0x0A => n (tidCoord g t.helper (tidSlot tid) 2)
  | 0x10 => n b.bx
  | 0x11 => n b.by'
  | 0x12 => n b.bz
  | 0x14 => n g.bdx
  | 0x15 => n g.bdy
  | 0x16 => n g.bdz
  | 0x18 => n g.gx
  | 0x19 => n g.gy
  | 0x1A => n g.gz
  | 0x1C => n b.crank
  | 0x1D => n g.csize
  | 0x20 => n b.core
  | 0x21 => n (coreCcl b.core)
  | 0x22 => n (coreDie b.core)
  | 0x23 => n s.gdn
  | 0x24 => n g.cid
  | 0x28 => s.kidOf tid pc
  | 0x30 => n (s.di (coreDie b.core)).cycles
  | 0x31 => n s.time
  | 0x32 => n (t.edge % 2 ^ 48)
  | 0x40 => n s.chargePkg
  | 0x41 => n (s.di (coreDie b.core)).charge
  | 0x42 => n s.pow.pset
  | 0x43 => n (s.co b.core).tokstall
  | 0x48 => n (s.hpend g.cid)
  | 0x80 => t.tpc
  | 0x81 => t.tcause
  | 0x82 => t.tval
  | 0x83 => t.tstat
  | 0x84 => t.tkid
  | 0x85 => t.topc
  | _ => 0

/-- A value written to a destination of 32 or 64 bits. -/
def outWidth (w : Option Nat) (x : DWord) : List Word := if w = some 64 then words64 x else [x.setWidth 32]

/-- `S2V` (R198). -/
def execS2v (f : Sy) (s : State) : Host.Outcome State Fault Refusal :=
  runReg (.s2v f) f.d (fun e tid _ => outWidth (s2vWidth f.sel.toNat) (e.s0.special tid f.sel.toNat e.grp.pc)) s

/-- The trap state that `V2S` leaves (R199). -/
def Thr.v2s (t : Thr) (sel : Nat) (a : Opnd) : Thr :=
  match sel with
  | 0x80 => { t with tpc := t.val64 a }
  | 0x81 => { t with tcode := (t.val a).toNat % 256 }
  | 0x82 => { t with tval := t.val64 a }
  | 0x83 => { t with pp := (t.val a).toNat % 4 }
  | _ => t

/-- `V2S` (R199). -/
def execV2s (f : Sy) (s : State) : Host.Outcome State Fault Refusal :=
  runWord (.v2s f) (fun _ tid s => .done (s.modTh tid fun t => t.v2s f.sel.toNat f.a)) s

/-- `RFT` (R201): ILLEGAL_ENCODING when `PP` is 2 or 3, then MISALIGN when `TPC`, the target, is not 8-byte aligned (R77; the order is the
model's, log 97). -/
def execRft (f : Sy) (s : State) : Host.Outcome State Fault Refusal :=
  runWord (.rft f) (fun e tid s =>
    if (e.s0.th tid).pp ≥ 2 then .trap (cIllEnc, e.body.word e.op)
    else if (e.s0.th tid).tpc.toNat % 8 ≠ 0 then .trap (cMisalign, (e.s0.th tid).tpc)
    else .leave (s.returnTrap tid)) s

/-- `KSWAP` (R202). -/
def execKswap (f : V3) (s : State) : Host.Outcome State Fault Refusal :=
  runWord (.kswap f) (fun e tid s =>
    let t := e.s0.th tid
    .done (s.modTh tid fun x => (x.write f.d [t.val f.a]).write f.a [t.val f.d])) s

/-- The status word (R204). -/
def Thr.status (t : Thr) : DWord :=
  let v (k : Nat) : Nat := (t.shadow.getD k {}).valid
  .ofNat 64 (t.edge % 2 ^ 48 * 2 ^ 16 + t.tst * 2 ^ 13 + v 2 * 2 ^ 8 + v 1 * 2 ^ 6 + v 0 * 2 ^ 4 +
    (t.st == .never).toNat * 8 + (t.st == .exited).toNat * 4 + t.helper.toNat * 2 + t.hlt.toNat)

/-- The RW fields of the status word written (R204). -/
def Thr.setStatus (t : Thr) (x : Nat) : Thr :=
  let lv (k : Nat) : Nat := min 2 (bitsOf x (4 + 2 * k) 2)
  { t with
    edge := x / 2 ^ 16, hlt := x.testBit 0
    shadow := (upto 3).map fun k => { t.shadow.getD k {} with valid := lv k } }

/-- A codebook word of a gang (R203). -/
def Gang.cbWord (g : Gang) (i : Nat) : Word := .ofNat 32 ((Tbl.get 0 g.cb (2 * i)).toNat + 2 ^ 16 * (Tbl.get 0 g.cb (2 * i + 1)).toNat)

/-- A codebook word written. -/
def Gang.setCbWord (g : Gang) (i : Nat) (x : Word) : Gang :=
  { g with cb := Tbl.set 0 (Tbl.set 0 g.cb (2 * i) (x.setWidth 16)) (2 * i + 1) ((x >>> 16).setWidth 16) }

/-- A thread-state word (R203). -/
def State.tsrWord (s : State) (tid sel : Nat) : DWord :=
  let t := s.th tid
  let g := s.gg (tidGk tid)
  if sel = 0 then t.status
  else if sel ≤ 3 then .ofNat 64 (t.shadow.getD (sel - 1) {}).val.toNat
  else if sel < 0x100 then
    let r := g.join (sel - 0x10)
    if r.decl then .ofNat 64 (r.members * 2 ^ 32 + r.signed) else -1
  else .ofNat 64 (g.cbWord (sel - 0x100)).toNat

/-- `TSR` (R203). -/
def execTsr (f : Sy) (s : State) : Host.Outcome State Fault Refusal :=
  runReg (.tsr f) f.d (fun e tid _ => outWidth (tsrWidth f.sel.toNat) (e.s0.tsrWord tid f.sel.toNat)) s

/-- A join register written by `TSW` (R203): Undeclared by all ones or an empty set; otherwise Open. -/
def State.writeJoin (s : State) (gk j x : Nat) : State :=
  if x = 2 ^ 64 - 1 then (s.setJoin gk j {}).releaseJoin gk j else s.declare gk j (x / 2 ^ 32) (x % 2 ^ 32)

/-- `TSW` (R203). -/
def execTsw (f : Sy) (s : State) : Host.Outcome State Fault Refusal :=
  runWord (.tsw f) (fun e tid s =>
    let t := e.s0.th tid
    let sel := f.sel.toNat
    let gk := tidGk tid
    if sel = 0 then .done (s.modTh tid fun x => x.setStatus (t.val64 f.a).toNat)
    else if sel ≤ 3 then
      .done (s.modTh tid fun x => { x with shadow := setAt {} x.shadow (sel - 1) { x.shadow.getD (sel - 1) {} with val := t.val f.a } })
    else if sel < 0x100 then
      if ((s.gg gk).join (sel - 0x10)).issuing then .hold (s.tryRound gk (sel - 0x10)) else .done (s.writeJoin gk (sel - 0x10) (t.val64 f.a).toNat)
    else .done (s.modGg gk fun g => g.setCbWord (sel - 0x100) (t.val f.a))) s

/-- The threads that a `HALTG` names (R205). -/
def State.haltNamed (s : State) (tid scope : Nat) (mask : Word) : List Nat :=
  ((s.thr.map (·.1)).filter s.resident).filter fun t => t != tid && match scope with
    | 0 => tidGk t == tidGk tid && mask.getLsbD (tidLane t)
    | 1 => tidBlk t == tidBlk tid
    | 2 => (s.blkOf t).gid == (s.blkOf tid).gid
    | _ => s.cidOf t == s.cidOf tid

/-- `HALTG` (R205). -/
def execHaltg (f : Sy) (s : State) : Host.Outcome State Fault Refusal :=
  runWord (.haltg f) (fun e tid s =>
    .done ((s.haltNamed tid (f.sel.toNat / 2) ((e.s0.th tid).val f.a)).foldl (fun s t => s.postHalt t (f.sel.getLsbD 0)) s)) s

/-- `TLBI` (R206); bits 63:56 of a page's address are not looked at (log 116). -/
def execTlbi (f : V3) (s : State) : Host.Outcome State Fault Refusal :=
  runWord (.tlbi f) (fun e tid s =>
    let asid := (s.cx (s.cidOf tid)).asid
    .done (match f.mod.toNat with
      | 0 => s.tlbDropPage asid (((e.s0.th tid).val64 f.a).toNat % 2 ^ 56)
      | 1 => s.tlbDrop fun x => x.asid == asid
      | _ => s.tlbDrop fun _ => true)) s

end Sys2Proof.Machine
end

