-- ==== Sys2Proof/Machine/Access.lean ====
section
/-!
DEFINITION. An access of a thread: its effective address (R227), the checks of R228, the places it may reach, pending results
(R79, R229, R232), and engine writes and publishes (R216 to R218).
-/
namespace Sys2Proof.Machine

/-! ### The checks of R228 -/

/-- What the checks of an access come to. -/
inductive Acs where
  | at (p : Place)
  | trap (c : Cause)
  | fatal (r : FRec)
  | page (r : FRec)
  /-- A write waits at its slot for a Migrating page (R264), by its record. -/
  | wait (key : Nat)
  deriving DecidableEq, Repr

/-- A member's step when its checks failed. -/
def Acs.fail : Acs → Lane
  | .at _ => .stall
  | .trap c => .trap c
  | .fatal r => .fatal r
  | .page r => .page r
  | .wait k => .wait k

/-- What a word's origin adds to its scratchpad offsets, and the bound they have (R316). -/
def State.spadWin (s : State) (tid addr : Nat) : Nat × Nat :=
  match s.origin tid addr, (s.gridOf tid).spl with
  | some o, some id =>
    match s.splices.find? (·.id == id) with
    | some e => if o.c then (e.sp, e.sc) else (0, e.sp)
    | none => (0, (s.gridOf tid).spad)
  | _, _ => (0, (s.gridOf tid).spad)

/-- The region of the cluster block of a rank: core and first byte. -/
def State.rankSpad (s : State) (tid rank : Nat) : Nat × Nat :=
  let b := s.blkOf tid
  let p := s.bk (b.peers.getD rank (tidBlk tid))
  (p.core, p.spadBase)

/-- A scratchpad (1) or cluster (2) address (R227, R228 order 2). -/
def State.spadPlace (s : State) (tid sp ea w addr : Nat) : Option Nat :=
  let (add, bound) := s.spadWin tid addr
  let off := if sp = 2 then ea % 2 ^ 19 else ea
  let rank := if sp = 2 then ea / 2 ^ 19 else (s.blkOf tid).crank
  if 2 ^ 22 ≤ ea ∨ bound < off + w ∨ (sp = 2 ∧ (s.gridOf tid).csize ≤ rank) then none
  else
    let r := if sp = 2 then s.rankSpad tid rank else ((s.blkOf tid).core, (s.blkOf tid).spadBase)
    some (spadLoc r.1 (r.2 + add + off))

/-- The permission, space and kind of a page for a thread's access (check 5 of R228, R363): kind 1 for space 0, 2 or 3 for space 3. -/
def Xlat.permits (x : Xlat) (s : State) (lvl : Lvl) (kind : Nat) (rd wr : Bool) : Bool :=
  pteKind x.pte == kind && (!rd || pteR x.pte) && (!wr || pteW x.pte) && !(pteSo x.pte && lvl == .u) &&
    !(kind == 2 && pteGdn x.pte / 2 ^ 10 != s.pkg.pod)

/-- Context windows, which no core reaches (R27). -/
def inCtxWindows (pa : Nat) : Bool := decide (hbmTop + 0x100000 ≤ pa) && decide (pa < hbmTop + 0x200000)

/-- Checks 3 to 6 of R228 for a virtual address, and the place it names. -/
def State.pageAcs (s : State) (tid kind : Nat) (rd wr : Bool) (ea : Nat) (pc : DWord) : Acs × State :=
  let access : Acs := .trap (cAccess, .ofNat 64 ea)
  if spliceVa ≤ ea then (access, s)
  else match s.reach tid 0 rd wr ea pc with
    | (.fatal r, s) => (.fatal r, s)
    | (.page r, s) => (.page r, s)
    | (.ok x, s) =>
      if !x.permits s (s.th tid).lvl kind rd wr then (access, s)
      else if x.held.st = 6 then (.trap (cVacated, .ofNat 64 ea), s)
      else match (if wr then x.waitsOn s (s.cx (s.cidOf tid)).asid ea else none) with
        | some k => (.wait k, s)
        | none => match x.place s ea with
          | .dev pa => (if inCtxWindows pa then access else .at (.dev pa), s)
          | p => (.at p, s.fillAt p)

/-- The checks of R228 in their order: alignment, scratchpad bounds, translation, permission, Vacated. -/
def State.acs (s : State) (tid sp kind w : Nat) (rd wr : Bool) (ea : Nat) (pc : DWord) : Acs × State :=
  if ea % w ≠ 0 then (.trap (cMisalign, .ofNat 64 ea), s)
  else if sp = 1 ∨ sp = 2 then
    match s.spadPlace tid sp ea w (pcAddr pc) with
    | some l => (.at (.loc l), s)
    | none => (.trap (cAccess, .ofNat 64 ea), s)
  else s.pageAcs tid kind rd wr ea pc

/-- The effective address of a memory word, its offset scaled (R227). -/
def memEa (f : Mem) (t : Thr) (scale : Nat) : Nat :=
  let off : Int := f.off.toInt * (scale : Int)
  if f.sp = 1 ∨ f.sp = 2 then wrapN 32 ((t.val f.a).toNat + off) else wrapN 56 ((t.val64 f.a).toNat + off)

/-- The access width of a memory word (R226). -/
def memW (f : Mem) : Nat := 2 ^ f.w.toNat

/-! ### Device places (R15, log 26) -/

/-- PCIe space of the root port. -/
def inPcie (pa : Nat) : Bool := decide (0x10000000000 ≤ pa) && decide (pa < 0x20000000000)

/-- The doorbell page that an 8-byte access at a device address reaches: its queue. -/
def doorbellOf (pa w : Nat) : Option Nat :=
  let o := pa - (hbmTop + 0x1000000)
  if hbmTop + 0x1000000 ≤ pa ∧ o < 0x1000000 ∧ o % 0x1000 = 0 ∧ w = 8 then some (o / 0x1000) else none

/-- What a core reads at a device address: `RIDX` at a doorbell, a free value from PCIe space, 0 elsewhere. -/
def State.devRead (s : State) (pa w : Nat) : Nat × State :=
  match doorbellOf pa w with
  | some q => ((s.qv q).ridx, s)
  | none => if inPcie pa then let (x, s) := s.free; (x.toNat % 2 ^ (8 * min w 8), s) else (0, s)

/-- A core's write at a device address: a doorbell; nothing of this package elsewhere. -/
def State.devWrite (s : State) (pa w x : Nat) : State :=
  match doorbellOf pa w with
  | some q => s.doorbell q x
  | none => s

/-! ### Pending results -/

/-- The words of a loaded value (R232). -/
def loadWords (w : Nat) (sx : Bool) (n : Nat) : List Word :=
  if w ≤ 4 then [if sx && w ≤ 2 then .ofInt 32 (sextNat (8 * w) n) else .ofNat 32 n]
  else (upto (w / 4)).map fun i => .ofNat 32 (n / 2 ^ (32 * i))

/-- The value of a data operand of an access of `w` bytes (R226). -/
def Thr.data (t : Thr) (w : Nat) (o : Opnd) : Nat := wordsNat (t.vals (max 1 (w / 4)) o) % 2 ^ (8 * w)

/-- An instruction counts its flag and leaves a pending result (R79, R229). -/
def State.addPend (s : State) (tid : Nat) (p : Pend) : State :=
  { s with fresh := s.fresh + 1 }.modTh tid fun t => { t.count p.flag with pend := t.pend ++ [{ p with seq := s.fresh }] }

/-- A deferred error of an instruction that counts no flag. -/
def State.addErr (s : State) (tid : Nat) (e : DErr) : State :=
  { s with fresh := s.fresh + 1 }.modTh tid fun t => { t with errs := t.errs ++ [{ e with seq := s.fresh }] }

/-- A result of this package's memory: the words for D. -/
def pendVals (flag : Nat) (d : Opnd) (ws : List Word) : Pend := { flag, dst := d, vals := ws, src := .here }

/-- A result that is a deferred error: nothing is written. -/
def pendErr (flag code : Nat) (tval : Nat) (wr : Bool) (pc : DWord) (nak : Nat := 0) (va : Nat := tval) : Pend :=
  { flag, dst := .vz, vals := [], src := .here, err := some { code, tval := .ofNat 64 tval, seq := 0, wr, pc, nak, va } }

/-- The flag that a word's slot counts. -/
def Env.flag (e : Env) : Nat := (hdrFlag e.grp.hdr e.body.fs).getD 0

/-! ### Engine writes and publish (R216 to R218, R285) -/

/-- An engine write of bytes of one sector: into the shadow of a Shadowed page, whose sector is first copied, else into memory. -/
def State.engineWrite (s : State) (asid : Nat) (x : Xlat) (va loc : Nat) (bs : List Byte) (edge : Nat := 0) : State :=
  if x.held.st = 4 then
    let off := va - x.page
    let sec := off / 32
    let h := Tbl.get {} s.held (heldKey asid x.page)
    let s := if h.written.contains sec then s
      else (s.wr (h.shadow + 32 * sec) (s.bytes (loc / 32 * 32) 32)).setHeld asid x.page { h with written := h.written ++ [sec] }
    s.wr (h.shadow + off) bs edge
  else s.wr loc bs edge

/-- Sectors take their shadow values. -/
def State.swapSectors (s : State) (frame shadow edge : Nat) : List Nat → State
  | [] => s
  | k :: ks => (s.wr (frame + 32 * k) (s.bytes (shadow + 32 * k) 32) edge).swapSectors frame shadow edge ks

/-- A publish of a handle of an address space: every Shadowed page tagged with it is swapped and its shadow record emptied. -/
def State.publish (s : State) (asid handle edge : Nat) : State :=
  s.held.foldl (fun s (key, h) =>
    if handle ≠ 0 ∧ key / 2 ^ 40 = asid ∧ h.st = 4 ∧ h.handle = handle then
      (s.swapSectors (pteFrame h.pte) h.shadow edge h.written).setHeld asid (key % 2 ^ 40 * 2 ^ 16) { h with written := [] }
    else s) s

end Sys2Proof.Machine
end

