-- ==== Sys2Proof/Machine/Memory.lean ====
section
/-!
DEFINITION. The memory words (10: R226 to R243, R247; R215) and the return of their results (R229, R232).
-/
namespace Sys2Proof.Machine

/-! ### Samples (R402) -/

/-- Distinct values of a list. -/
def countDistinct (l : List Nat) : Nat := l.eraseDups.length

/-- A slot's mark goes on the pending results that its active members got at it, where both lanes of a register word are active (R118), or the slot is
sampled (R402). -/
def State.markPends (s : State) (e : Env) (all : Bool) (tok : Nat) : State :=
  e.active.foldl (fun s t =>
    let n := (e.s0.th t).pend.length
    let both := e.active.contains (tidPair t)
    if (all || both) && decide (n < (s.th t).pend.length) then
      s.modTh t fun x => { x with pend := x.pend.take n ++ (x.pend.drop n).map fun p => { p with tok, both } }
    else s) s

/-- A memory slot's end, once for its group, after its members' steps: it is counted, and a sampled one is recorded once no result of it is
pending (R402). -/
def finMem (opk : Nat) (addrs : Env → Nat → List Nat) (e : Env) (a : Acc) : Acc :=
  if a.traps.isEmpty && a.pages.isEmpty && !a.stall then
    let tok := a.s.fresh + 1
    let (hit, s) := a.s.countSlot false e
    let s := s.markPends e hit tok
    match e.active, hit with
    | t :: _, true =>
      let all := e.active.flatMap (addrs e)
      let x := s.sampleOf e t opk (all.headD 0) (countDistinct (all.map fun x => x / 32)) tok
      { a with s := if e.active.any fun t => (s.th t).pend.any (·.tok == tok) then s.modCo e.core fun c => { c with sampled := c.sampled ++ [x] }
                    else s.writeSample x x.lane }
    | _, _ => { a with s }
  else a

/-- A memory slot that traps is counted, and no sample is written (R402). -/
def countMem (e : Env) (s : State) : State := (s.countSlot false e).2

/-- The effective address of a member of a slot. -/
def memAddrs (f : Mem) (scale : Nat) (e : Env) (tid : Nat) : List Nat := [memEa f (e.s0.th tid) scale]

/-! ### Loads and stores (R232) -/

/-- A load of `w` bytes at a place of this package counts its flag and leaves its result. -/
def State.loadAt (s : State) (tid : Nat) (e : Env) (d : Opnd) (w : Nat) (sx : Bool) (ea : Nat) : Place → State
  | .loc n =>
    s.addPend tid (if s.poisoned n w then pendErr e.flag cEccMem ea false e.grp.pc
      else pendVals e.flag d (loadWords w sx (s.rd n w)))
  | .dev pa => let (x, s) := s.devRead pa w; s.addPend tid (pendVals e.flag d (loadWords w sx x))
  | _ => s

/-- The step of `LD`: a helper's load that fails gives 0 (R97). -/
def stepLd (f : Mem) (e : Env) (tid : Nat) (s : State) : Lane :=
  let t := e.s0.th tid
  let w := (memW f)
  let ea := memEa f t w
  match s.acs tid f.sp.toNat 1 w true false ea e.grp.pc with
  | (.at p, s) => .done (s.loadAt tid e f.d w f.sx ea p)
  | (a, s') => if t.helper then .done (s'.addPend tid (pendVals e.flag f.d (loadWords w false 0))) else a.fail

/-- `LD` (R232). -/
def execLd (f : Mem) (s : State) : Host.Outcome State Fault Refusal :=
  runWord (.ld f) (stepLd f) s (finMem 0 (memAddrs f (memW f))) countMem

/-- The step of `ST`: a helper's has no memory effect (R97), and its address is not checked (log 115). -/
def stepSt (f : Mem) (e : Env) (tid : Nat) (s : State) : Lane :=
  let t := e.s0.th tid
  let w := (memW f)
  let ea := memEa f t w
  if t.helper then .done s
  else match s.acs tid f.sp.toNat 1 w false true ea e.grp.pc with
    | (.at (.loc n), s) => .done (s.wrN n w (t.data w f.x) (s.stamp tid))
    | (.at (.dev pa), s) => .done (s.devWrite pa w (t.data w f.x))
    | (.at _, s) => .done s
    | (a, _) => a.fail

/-- `ST` (R232). -/
def execSt (f : Mem) (s : State) : Host.Outcome State Fault Refusal :=
  runWord (.st f) (stepSt f) s (finMem 1 (memAddrs f (memW f))) countMem

/-! ### Atomics (R233, R234) -/

/-- Datum and swap value of an atomic (R233): for `.cas` the X field names cmp, then swap. -/
def memDatum (f : Mem) (t : Thr) : Nat × Nat :=
  let w := (memW f)
  if f.aop = 7 then
    let n := wordsNat (t.vals (2 * (max 1 (w / 4))) f.x)
    (n % 2 ^ (8 * w), n / 2 ^ (8 * w) % 2 ^ (8 * w))
  else (t.data w f.x, 0)

/-- The step of an atomic of spaces 0 to 2; `ret` when the old value returns.  The two halves of a packed type are one read-modify-write (log 117). -/
def stepAtom (f : Mem) (ret : Bool) (e : Env) (tid : Nat) (s : State) : Lane :=
  let t := e.s0.th tid
  let w := (memW f)
  let ea := memEa f t 0
  let (x, sw) := memDatum f t
  let new (old : Nat) : Nat := atomNew f.aop f.aty old x sw
  let back (s : State) (old : Nat) : State := if ret then s.addPend tid (pendVals e.flag f.d (loadWords w false old)) else s
  if t.helper then .done (back s 0)
  else match s.acs tid f.sp.toNat 1 w true true ea e.grp.pc with
    | (.at (.loc n), s) =>
      if s.poisoned n w then
        .done (if ret then s.addPend tid (pendErr e.flag cEccMem ea true e.grp.pc)
          else s.addErr tid { code := cEccMem, tval := .ofNat 64 ea, seq := 0, va := ea, wr := true, pc := e.grp.pc })
      else let (old, s) := s.rmw n w new (s.stamp tid); .done (back s old)
    | (.at (.dev pa), s) => let (old, s) := s.devRead pa w; .done (back (s.devWrite pa w (new old)) old)
    | (.at _, s) => .done s
    | (a, _) => a.fail

/-- `ATOM` (R234). -/
def execAtom (f : Mem) (s : State) : Host.Outcome State Fault Refusal :=
  runWord (.atom f) (stepAtom f true) s (finMem 2 (memAddrs f 0)) countMem

/-- `ARED` (R234). -/
def execAred (f : Mem) (s : State) : Host.Outcome State Fault Refusal :=
  runWord (.ared f) (stepAtom f false) s (finMem 2 (memAddrs f 0)) countMem

/-! ### Fabric operations (R235 to R237) -/

/-- What a fabric operation carries. -/
structure FabReq where
  kind : Nat
  opx : Nat
  atype : Nat := 0
  data : List Byte

/-- A fabric operation of a thread counts its flag: it is performed here when it names this device, and sent otherwise; none while the
destination has no room (R219, R348, R357). -/
def State.fabOp (s : State) (tid : Nat) (gdn pa : Nat) (r : FabReq) (p : Pend) (pc : DWord) : Option State :=
  let edge := s.stamp tid
  if gdn = s.gdn then
    match s.fabMem r.kind r.opx r.atype pa edge r.data with
    | (.ok bs, s) => some (s.addPend tid { p with src := .here, vals := if p.w = 0 then [] else loadWords p.w p.sx (leNat bs) })
    | (.error c, s) => some (s.addPend tid (pendErr p.flag cFabric (if c = 7 then p.fva else p.va) (r.kind != 0) pc c))
  else match s.request (.thread tid) r.kind gdn r.opx r.atype pa edge r.data p.va with
    | some (tag, s) => some (s.addPend tid { p with src := .fabric tag, pc })
    | none => none

/-- Device and physical address of a place of the fabric. -/
def Place.remote (p : Place) (s : State) : Nat × Nat :=
  match p with
  | .loc n => (s.gdn, n)
  | .fab g pa => (g, pa)
  | .dev pa => (s.gdn, pa)
  | .mc g o => (g, o)

/-- A member's step that waits when a destination has no room. -/
def laneOf : Option State → Lane
  | some s => .done s
  | none => .stall

/-- The step of `FLD` (R235). -/
def stepFld (f : Mem) (e : Env) (tid : Nat) (s : State) : Lane :=
  let t := e.s0.th tid
  let w := (memW f)
  let ea := memEa f t w
  match s.acs tid 3 2 w true false ea e.grp.pc with
  | (.at p, s) =>
    let (g, pa) := p.remote s
    laneOf (s.fabOp tid g pa { kind := 0, opx := f.w.toNat, data := [] }
      { flag := e.flag, dst := f.d, vals := [], src := .here, va := ea, w, sx := f.sx } e.grp.pc)
  | (a, s') => if t.helper then .done (s'.addPend tid (pendVals e.flag f.d (loadWords w false 0))) else a.fail

/-- `FLD` (R235). -/
def execFld (f : Mem) (s : State) : Host.Outcome State Fault Refusal :=
  runWord (.fld f) (stepFld f) s (finMem 3 (memAddrs f (memW f))) countMem

/-- The step of `FATOM` (R235). -/
def stepFatom (f : Mem) (e : Env) (tid : Nat) (s : State) : Lane :=
  let t := e.s0.th tid
  let w := (memW f)
  let ea := memEa f t 0
  let (x, sw) := memDatum f t
  if t.helper then .done (s.addPend tid (pendVals e.flag f.d (loadWords w false 0)))
  else match s.acs tid 3 2 w true true ea e.grp.pc with
    | (.at p, s) =>
      let (g, pa) := p.remote s
      laneOf (s.fabOp tid g pa
        { kind := 4, opx := 16 * f.aop, atype := f.aty.code, data := natLe w x ++ (if f.aop = 7 then natLe w sw else []) }
        { flag := e.flag, dst := f.d, vals := [], src := .here, va := ea, w } e.grp.pc)
    | (a, _) => a.fail

/-- `FATOM` (R235). -/
def execFatom (f : Mem) (s : State) : Host.Outcome State Fault Refusal :=
  runWord (.fatom f) (stepFatom f) s (finMem 3 (memAddrs f 0)) countMem

/-- The flag address of a flagged store; none for `vz`. -/
def memFlagAddr (f : Mem) (t : Thr) : Option Nat := if f.d = .vz then none else some ((t.val64 f.d).toNat % 2 ^ 56)

/-- The step of `FST` (R236): the checks for the data address, then for the flag's, which lies on the same device. -/
def stepFst (f : Mem) (e : Env) (tid : Nat) (s : State) : Lane :=
  let t := e.s0.th tid
  let w := (memW f)
  let ea := memEa f t w
  let data := natLe w (t.data w f.x)
  let p : Pend := { flag := e.flag, dst := .vz, vals := [], src := .here, va := ea }
  if t.helper then .done (s.addPend tid p)
  else match s.acs tid 3 2 w false true ea e.grp.pc with
    | (.at pl, s) =>
      let (g, pa) := pl.remote s
      match memFlagAddr f t with
      | none => laneOf (s.fabOp tid g pa { kind := 2, opx := f.w.toNat, data } p e.grp.pc)
      | some fa =>
        match s.acs tid 3 2 8 true true fa e.grp.pc with
        | (.at fl, s) =>
          let (g2, fpa) := fl.remote s
          if g2 ≠ g then .trap (cAccess, .ofNat 64 fa)
          else laneOf (s.fabOp tid g pa { kind := 3, opx := f.w.toNat, data := natLe 8 fpa ++ data } { p with fva := fa } e.grp.pc)
        | (a, _) => a.fail
    | (a, _) => a.fail

/-- `FST` (R236). -/
def execFst (f : Mem) (s : State) : Host.Outcome State Fault Refusal :=
  runWord (.fst f) (stepFst f) s (finMem 3 (memAddrs f (memW f))) countMem

/-- Entry m of a multicast group (R362): valid, frame, device. -/
def State.mcEntry (s : State) (group m : Nat) : Bool × Nat × Nat :=
  let e := s.rd (s.pkg.mcbase + 512 * group + 8 * m) 8
  (e.testBit 63, bitsOf e 20 36 * 2 ^ 16, e % 2 ^ 20)

/-- The sending of a multicast: state, tags waited for, failed members, the code of the lowest. -/
structure McAcc where
  s : State
  tags : List (Nat × Nat) := []
  failed : Nat := 0
  nak : Nat := 0

/-- A member of a multicast fails. -/
def McAcc.bad (a : McAcc) (m code : Nat) : McAcc :=
  { a with failed := a.failed + 2 ^ m, nak := if a.failed = 0 then code else a.nak }

/-- One member of a multicast store (R220, R237, R362). -/
def mcMember (owner : Owner) (group off edge opx : Nat) (flag : Option Nat) (data : List Byte) (m : Nat) (a : McAcc) : Option McAcc :=
  let (v, frame, gdn) := a.s.mcEntry group m
  let payload := (match flag with | some o => natLe 8 (frame + o) | none => []) ++ data
  if !v then some a
  else if gdn / 2 ^ 10 ≠ a.s.pkg.pod then some (a.bad m 5)
  else if gdn = a.s.gdn then
    match a.s.fabMem 5 opx 0 (frame + off) edge payload with
    | (.ok _, s) => some { a with s }
    | (.error c, s) => some ({ a with s }.bad m c)
  else match a.s.request owner 5 gdn opx 0 (frame + off) edge payload with
    | some (tag, s) => some { a with s, tags := a.tags ++ [(tag, m)] }
    | none => none

/-- A multicast store to every valid member; every one of 64 fails when the group has none. -/
def State.mcSend (s : State) (owner : Owner) (group off edge opx : Nat) (flag : Option Nat) (data : List Byte) : Option McAcc :=
  if (upto 64).any fun m => (s.mcEntry group m).1 then
    (upto 64).foldl (fun a m => a.bind (mcMember owner group off edge opx flag data m)) (some { s })
  else some { s, failed := 2 ^ 64 - 1, nak := 5 }

/-- The step of `MCST` (R237). -/
def stepMcst (f : Mem) (e : Env) (tid : Nat) (s : State) : Lane :=
  let t := e.s0.th tid
  let w := (memW f)
  let ea := memEa f t w
  let data := natLe w (t.data w f.x)
  let send (s : State) (g o : Nat) (flag : Option Nat) : Lane :=
    match s.mcSend (.thread tid) g o (s.stamp tid) f.w.toNat flag data with
    | none => .stall
    | some a =>
      if a.tags.isEmpty then
        .done (a.s.addPend tid (if a.failed = 0 then pendVals e.flag .vz []
          else pendErr e.flag cMcast a.failed true e.grp.pc a.nak ea))
      else .done (a.s.addPend tid { flag := e.flag, dst := .vz, vals := [], src := .mcast a.tags, va := ea, failed := a.failed,
                                    nak := a.nak, pc := e.grp.pc })
  if t.helper then .done (s.addPend tid (pendVals e.flag .vz []))
  else match s.acs tid 3 3 w false true ea e.grp.pc with
    | (.at pl, s) =>
      let (g, o) := pl.remote s
      match memFlagAddr f t with
      | none => send s g o none
      | some fa =>
        match s.acs tid 3 3 8 true true fa e.grp.pc with
        | (.at fl, s) =>
          let (g2, fo) := fl.remote s
          if g2 ≠ g then .trap (cAccess, .ofNat 64 fa) else send s g o (some fo)
        | (a, _) => a.fail
    | (a, _) => a.fail

/-- `MCST` (R237); what a flag address that may not be used raises is log 119. -/
def execMcst (f : Mem) (s : State) : Host.Outcome State Fault Refusal :=
  runWord (.mcst f) (stepMcst f) s (finMem 3 (memAddrs f (memW f))) countMem

/-! ### Tiles (R238, R240, R289, R290) -/

/-- The tile of a descriptor: rows, columns. -/
def Tile.dims (d : Tile) : Nat × Nat :=
  let (m, n, k) := shapeDims d.shape
  match d.role with
  | 0 => (m, k)
  | 1 => if d.shape = 7 then (n, k) else (k, n)
  | _ => (m, n)

/-- Bits of an element of a tile. -/
def Tile.bits (d : Tile) : Nat := if d.role < 2 then shapeBits d.shape else if d.shape = 0 then 64 else 32

/-- Bytes of an element operation: a CB4 byte holds two elements. -/
def Tile.esize (d : Tile) : Nat := max 1 (d.bits / 8)

/-- Row and column, within the tile, of position p of a lane's fragment. -/
def Tile.cell (d : Tile) (lane p : Nat) : Nat × Nat :=
  let (_, n, k) := shapeDims d.shape
  match d.role with
  | 0 => (lane % 16, k / 2 * (lane / 16) + p)
  | 1 =>
    let kk := k * n / 32 * (lane / n) + p
    if d.shape = 7 then (lane % n, kk) else (kk, lane % n)
  | _ => (lane % 16, n / 2 * (lane / 16) + p)

/-- The parameter word that gives a tile's tensor base, in the part of the region that the word's origin may reach; none past its bound (R240, R316). -/
def State.tileBase (s : State) (tid : Nat) (d : Tile) (addr : Nat) : Option Nat :=
  let (add, bound) := s.spadWin tid addr
  let b := s.blkOf tid
  if bound < 8 * d.param + 8 then none else some (s.rd (spadLoc b.core (b.spadBase + add + 8 * d.param)) 8)

/-- The elements that a lane holds: position, and the address and nibble of one inside the tensor. -/
def State.tileElems (s : State) (tid : Nat) (d : Tile) (addr i : Nat) (iter : Int) : List (Nat × Option (Nat × Nat)) :=
  let b := s.blkOf tid
  let base := (s.tileBase tid d addr).getD 0
  let tr := d.mx * b.bx + d.my * b.by' + d.mi * iter + d.m0
  let tc := d.nx * b.bx + d.ny * b.by' + d.ni * iter + d.n0
  let (th, tw) := d.dims
  (upto i).map fun p =>
    let (r, c) := d.cell (tidLane tid) p
    let row := tr * th + r
    let col := tc * tw + c
    if 0 ≤ row ∧ row < d.rows ∧ 0 ≤ col ∧ col < d.cols then
      let c := col.toNat
      (p, some ((base + row.toNat * d.stride + c * d.bits / 8) % 2 ^ 56, if d.bits = 4 then c % 2 else 0))
    else (p, none)

/-- Elements of a lane. -/
def Tile.count (d : Tile) : Nat := 32 * d.regs / d.bits

/-- The failure of the lowest failing address, or the place of every address. -/
def State.tileAcs (s : State) (tid esz : Nat) (off : Bool) (rd wr : Bool) (pc : DWord) : List Nat → Except Acs (List (Nat × Place)) × State
  | [] => (.ok [], s)
  | a :: as =>
    if off then (.error (.trap (cMisalign, .ofNat 64 a)), s)
    else match s.acs tid 0 1 esz rd wr a pc with
      | (.at p, s) =>
        (match s.tileAcs tid esz off rd wr pc as with
         | (.ok ps, s) => (.ok ((a, p) :: ps), s)
         | (.error x, s) => (.error x, s))
      | (x, s) => (.error x, s)

/-- The place that an address was found at. -/
def placeOf (ps : List (Nat × Place)) (a : Nat) : Place := ((ps.find? (·.1 == a)).map (·.2)).getD (.dev 0)

/-- Reads one element. -/
def State.readElem (s : State) (p : Place) (esz nib bits : Nat) : Nat × State :=
  match p with
  | .loc n => (s.rd n esz / 2 ^ (4 * nib) % 2 ^ bits, s)
  | .dev pa => let (x, s) := s.devRead pa esz; (x / 2 ^ (4 * nib) % 2 ^ bits, s)
  | _ => (0, s)

/-- The fragment that the elements fill. -/
def State.readFrag (s : State) (d : Tile) (ps : List (Nat × Place)) : List (Nat × Option (Nat × Nat)) → Nat × State
  | [] => (0, s)
  | (p, el) :: es =>
    let (x, s) := match el with
      | some (a, nib) => s.readElem (placeOf ps a) d.esize nib d.bits
      | none => (0, s)
    let (y, s) := s.readFrag d ps es
    (x * 2 ^ (d.bits * p) + y, s)

/-- The lowest address whose sector is poisoned. -/
def State.firstPoison (s : State) (esz : Nat) : List (Nat × Place) → Option Nat
  | [] => none
  | (a, .loc n) :: ps => if s.poisoned n esz then some a else s.firstPoison esz ps
  | _ :: ps => s.firstPoison esz ps

/-- The words of a fragment of `n` registers. -/
def fragWords (n x : Nat) : List Word := (upto n).map fun i => .ofNat 32 (x / 2 ^ (32 * i))

/-- The addresses of a lane's elements inside the tensor, in order. -/
def elemAddrs (es : List (Nat × Option (Nat × Nat))) : List Nat := sortBy id ((es.filterMap fun x => x.2.map (·.1)).eraseDups)

/-- The iteration operand. -/
def memIter (f : Mem) (t : Thr) : Int := (t.val f.a).toInt

/-- Base and stride of a descriptor are not multiples of the element size. -/
def State.tileOff (s : State) (tid : Nat) (d : Tile) (addr : Nat) : Bool :=
  (s.tileBase tid d addr).getD 0 % d.esize != 0 || d.stride % d.esize != 0

/-- The places of a member's elements: ACCESS with the offset of the parameter word where that lies past its bound (R228, R316), else the failure of the
lowest failing address. -/
def State.tilePlaces (s : State) (tid : Nat) (d : Tile) (rd wr : Bool) (pc : DWord) (es : List (Nat × Option (Nat × Nat))) :
    Except Acs (List (Nat × Place)) × State :=
  if (s.tileBase tid d (pcAddr pc)).isNone then (.error (.trap (cAccess, .ofNat 64 (8 * d.param))), s)
  else s.tileAcs tid d.esize (s.tileOff tid d (pcAddr pc)) rd wr pc (elemAddrs es)

/-- The step of `TLD` (R240). -/
def stepTld (f : Mem) (e : Env) (tid : Nat) (s : State) : Lane :=
  let t := e.s0.th tid
  let addr := pcAddr e.grp.pc
  match e.tile with
  | none => .trap (cIllEnc, e.body.word e.op)
  | some d =>
    let es := s.tileElems tid d addr d.count (memIter f t)
    match s.tilePlaces tid d true false e.grp.pc es with
    | (.ok ps, s) =>
      match s.firstPoison d.esize ps with
      | some a => .done (s.addPend tid (pendErr e.flag cEccMem a false e.grp.pc))
      | none =>
        let (x, s) := s.readFrag d ps es
        .done (s.addPend tid (pendVals e.flag f.d (fragWords d.regs x)))
    | (.error a, s') =>
      if t.helper then .done (s'.addPend tid (pendVals e.flag f.d (fragWords d.regs 0))) else a.fail

/-- The addresses of a tile word's member. -/
def tileAddrs (f : Mem) (e : Env) (tid : Nat) : List Nat :=
  let addr := pcAddr e.grp.pc
  match e.s0.tileOf tid addr (f.off.toNat / 64) with
  | some d => elemAddrs (e.s0.tileElems tid d addr d.count (memIter f (e.s0.th tid)))
  | none => []

/-- `TLD` (R240). -/
def execTld (f : Mem) (s : State) : Host.Outcome State Fault Refusal :=
  runWord (.tld f) (stepTld f) s (finMem 4 (tileAddrs f)) countMem

/-- Writes one element of a fragment, or one byte of CB4 elements. -/
def State.writeElem (s : State) (p : Place) (esz x edge : Nat) : State :=
  match p with
  | .loc n => s.wrN n esz x edge
  | .dev pa => s.devWrite pa esz x
  | _ => s

/-- The byte of CB4 elements at an address, as one operation writes it (R290): a nibble that is no element inside the tensor keeps its value. -/
def State.cbByte (s : State) (p : Place) (a frag : Nat) (es : List (Nat × Option (Nat × Nat))) : Nat :=
  let old := match p with | .loc n => s.rd n 1 | _ => 0
  let nib (k : Nat) : Nat := match es.find? fun x => x.2 == some (a, k) with
    | some (p, _) => fragElem frag 4 p
    | none => bitsOf old (4 * k) 4
  nib 0 + 16 * nib 1

/-- Writes a fragment's elements, each in one operation, in the order of their positions (log 8); of CB4 elements, each byte (R290). -/
def State.writeFrag (s : State) (d : Tile) (ps : List (Nat × Place)) (frag edge : Nat) (es : List (Nat × Option (Nat × Nat))) : State :=
  if d.bits = 4 then (elemAddrs es).foldl (fun s a => s.writeElem (placeOf ps a) 1 (s.cbByte (placeOf ps a) a frag es) edge) s
  else es.foldl (fun s x => match x with
    | (p, some (a, _)) => s.writeElem (placeOf ps a) d.esize (fragElem frag d.bits p) edge
    | _ => s) s

/-- The step of `TST` (R240). -/
def stepTst (f : Mem) (e : Env) (tid : Nat) (s : State) : Lane :=
  let t := e.s0.th tid
  let addr := pcAddr e.grp.pc
  match e.tile with
  | none => .trap (cIllEnc, e.body.word e.op)
  | some d =>
    if t.helper then .done s
    else
      let es := s.tileElems tid d addr d.count (memIter f t)
      match s.tilePlaces tid d false true e.grp.pc es with
      | (.ok ps, s) => .done (s.writeFrag d ps (wordsNat (t.vals d.regs f.x)) (s.stamp tid) es)
      | (.error a, _) => a.fail

/-- `TST` (R240). -/
def execTst (f : Mem) (s : State) : Host.Outcome State Fault Refusal :=
  runWord (.tst f) (stepTst f) s (finMem 4 (tileAddrs f)) countMem

/-! ### Prefetch, locks, fences, records -/

/-- `PREF` (R241): it may bring a translation into the TLBs, and changes no value. -/
def execPref (f : Mem) (s : State) : Host.Outcome State Fault Refusal :=
  runWord (.pref f) (fun e tid s =>
    let ea := memEa f (e.s0.th tid) 1
    .done (if spliceVa ≤ ea then s else (s.reach tid 0 true false ea e.grp.pc).2)) s (finMem 0 (memAddrs f 1)) countMem

/-- The locks of a context at a level. -/
def State.lockCount (s : State) (cid lvl : Nat) : Nat := (s.locks.filter fun l => l.cid == cid && l.lvl == lvl).length

/-- `CCTL` on the line of a location: its status (R247). -/
def State.cctl (s : State) (cid op loc : Nat) : Nat × State :=
  let lvl := op % 2
  let line := loc / 128
  let mine : Lock := { cid, lvl, line }
  let c := s.cx cid
  if 2 ≤ op then
    if s.locks.contains mine then (0, { s with locks := s.locks.erase mine }) else (3, s)
  else if !inMask c.dies (s.homeDie loc) then (4, s)
  else if s.locks.contains mine then (0, s)
  else if 15 ≤ countDistinct ((s.locks.filter fun l => l.lvl == lvl && s.lockSet lvl l.line == s.lockSet lvl line).map (·.line)) then (1, s)
  else if (if lvl = 0 then c.lockql2 else c.lockqllc) ≤ s.lockCount cid lvl then (2, s)
  else (0, { s with locks := s.locks ++ [mine] })

/-- The step of `CCTL` (R247); a line of device space has no home and no lock (log 27). -/
def stepCctl (f : Mem) (e : Env) (tid : Nat) (s : State) : Lane :=
  let ea := memEa f (e.s0.th tid) 0
  match s.acs tid 0 1 1 true false ea e.grp.pc with
  | (.at p, s) =>
    let (st, s) := match p with
      | .loc n => s.cctl (s.cidOf tid) f.off.toNat n
      | _ => (if 2 ≤ f.off.toNat then 3 else 4, s)
    .done (s.addPend tid (pendVals e.flag f.d [.ofNat 32 st]))
  | (a, _) => a.fail

/-- `CCTL` (R247). -/
def execCctl (f : Mem) (s : State) : Host.Outcome State Fault Refusal :=
  runWord (.cctl f) (stepCctl f) s (finMem 0 (memAddrs f 0)) countMem

/-- A transfer of the thread is on a channel of its core. -/
def State.transfersOf (s : State) (tid : Nat) : Bool :=
  (s.co (s.coreOf tid)).chans.any fun c => c.xs.any fun x => x.tid == some tid

/-- A fabric operation of the thread has not returned. -/
def Thr.fabricOut (t : Thr) : Bool :=
  t.pend.any fun p => match p.src, p.err with
    | .fabric _, _ | .mcast _, _ => true
    | .here, some x => fabricCode x.code
    | _, _ => false

/-- The errors that a `FENCE.fab` raises at its slot (R197, R229): those of cause FABRIC. -/
def Thr.fenceDue (t : Thr) : Option DErr := firstErr (t.dueErrs.filter fun x => x.code == cFabric)

/-- The step of `FENCE` (R215): the group stalls until the condition holds; `.io` waits for what the thread's fabric operations have still to perform, its
other accesses being performed at their slots.  With `.fab` a failed fabric operation raises FABRIC at the slot (R229). -/
def stepFence (f : Mem) (_ : Env) (tid : Nat) (s : State) : Lane :=
  let t := s.th tid
  let k (i : Nat) : Bool := f.off.getLsbD i
  if (k 0 || k 1) && s.transfersOf tid then .stall
  else if (k 2 || k 3) && t.fabricOut then .stall
  else match if k 2 then t.fenceDue else none with
    | some x => .trap (x.code, x.tval)
    | none => .done s

/-- After a fence that raised a fabric error: of the thread's pending errors that one is raised, with its record (R358), and the others go to the fault
queue (R229). -/
def State.fenceErrs (old s : State) (tid : Nat) : State :=
  let t := s.th tid
  let was := (old.th tid).dueErrs
  match (old.th tid).fenceDue with
  | some x =>
    if s.resident tid ∧ t.st = .entering ∧ (old.th tid).st = .ready ∧ t.tcode = x.code then
      ((was.erase x).foldl (fun s y => s.errRec tid y) (s.errRec tid x)).modTh tid fun t => { t with errs := t.errs.filter (·.outer) }
    else s
  | none => s

/-- `FENCE` (R215, R242). -/
def execFence (f : Mem) (s : State) : Host.Outcome State Fault Refusal :=
  match runWord (.fence f) (stepFence f) s with
  | .next t => .next (match s.cur with
    | some g => if f.off.getLsbD 2 then g.members.foldl (fun t m => s.fenceErrs t m) t else t
    | none => t)
  | o => o

/-- Records buffered for a node of a partition (R308). -/
def State.nodeFill (s : State) (dies node : Nat) : Nat :=
  let n := Tbl.get {} s.node (dies * 256 + node)
  let gs := s.grid.filter fun (_, g) => g.live && g.node == some (dies * 256 + node) && g.next == 0
  (n.gathers.map (·.recs.length)).sum + (gs.map fun (_, g) => g.recs.length).sum +
    (s.recs.filter fun r => r.dies == dies && r.node == node).length

/-- The step of `REC` (R243): payload, edge id, block coordinates, and the grid that R308 stores with them. -/
def stepRec (f : Mem) (e : Env) (tid : Nat) (s : State) : Lane :=
  let t := e.s0.th tid
  let dies := (s.cx (s.cidOf tid)).dies
  let b := s.blkOf tid
  if t.helper then .done s
  else if 64 ≤ s.nodeFill dies f.off.toNat then .stall
  else
    let body := [(t.val64 f.x).toNat, t.edge % 2 ^ 48, b.bx, b.by', b.bz, (s.gridOf tid).num, s.threadLid tid]
    .done { s with recs := s.recs ++ [{ dies, node := f.off.toNat, cid := s.cidOf tid, body }] }

/-- `REC` (R243). -/
def execRecW (f : Mem) (s : State) : Host.Outcome State Fault Refusal := runWord (.recW f) (stepRec f) s

/-! ### Returns -/

/-- The result of a slot whose two lanes load together has landed, or failed: when both lanes of its register words are written, the words are no longer
poisoned (R118). -/
def State.pairLanded (s : State) (tid : Nat) (p : Pend) : State :=
  let o := tidPair tid
  let waits := (s.th o).pend.any (·.tok == p.tok)
  if !p.both then s
  else if p.err.isSome then
    if waits then s.modTh o fun t => { t with pend := t.pend.map fun q => if q.tok = p.tok then { q with both := false } else q } else s
  else match p.dst with
    | .reg r =>
      if waits then s
      else s.clearPoison [tid / 2 * 2, tid / 2 * 2 + 1] ((upto p.vals.length).map (r.val + ·))
    | _ => s

/-- A sample whose last access has completed is written (R402). -/
def State.sampleDone (s : State) (tid tok : Nat) : State :=
  let core := s.coreOf tid
  match (s.co core).sampled.find? (·.tok == tok) with
  | some x =>
    if x.tids.any fun t => s.resident t && (s.th t).pend.any (·.tok == tok) then s
    else (s.modCo core fun c => { c with sampled := c.sampled.erase x }).writeSample x (tidLane tid)
  | none => s

/-- What the landing of a marked result does beside its write. -/
def State.landed (s : State) (tid : Nat) (p : Pend) : State :=
  if p.tok = 0 then s else (s.pairLanded tid p).sampleDone tid p.tok

/-- Pending result `k` of a thread, when its data have come: the destination is written, or the error stays pending, and the flag
falls (R229, R232). -/
def State.giveBack (s : State) (tid k : Nat) : State :=
  let t := s.th tid
  match t.pend[k]? with
  | none => s
  | some p =>
    if p.src ≠ .here then s
    else
      let t1 := Thr.uncount { t with pend := t.pend.eraseIdx k } p.flag
      let s := match p.err with
        | none => s.setTh tid (t1.write p.dst p.vals)
        | some x =>
          if t.st = TSt.exited then (s.setTh tid t1).exitErr tid { x with seq := p.seq }
          else s.setTh tid { t1 with errs := t1.errs ++ [{ x with seq := p.seq }] }
      s.landed tid p

/-- MEMORY_RETURN (R232). -/
def execMemoryReturn (tid k : Nat) (s : State) : Host.Outcome State Fault Refusal :=
  .next (if s.resident tid then s.giveBack tid k else s)

end Sys2Proof.Machine
end

