-- ==== Sys2Proof/Machine/Barrier.lean ====
section
/-!
DEFINITION. Barrier objects (R266 to R274): the object, its completion test, and the six object instructions.
-/
namespace Sys2Proof.Machine

/-! ### The object (R266) -/

/-- A barrier object. -/
structure Obj where
  ph : Bool := false
  apend : Nat := 0
  aexp : Nat := 0
  bpend : Int := 0
  lid : Nat := 0
  ledge : Nat := 0
  kind : Nat := 0
  deriving DecidableEq, Repr

/-- The object at a location, from its four words. -/
def Obj.ofWords (w0 w1 w2 : Nat) : Obj :=
  { ph := w0.testBit 63, apend := bitsOf w0 42 21, aexp := bitsOf w0 21 21, bpend := sextNat 40 (w1 / 2 ^ 24), lid := w1 % 2 ^ 24,
    ledge := w2 / 2 ^ 16 % 2 ^ 48, kind := w2 % 2 ^ 16 }

/-- The words of an object; reserved fields are written 0. -/
def Obj.words (o : Obj) : List Nat :=
  [o.ph.toNat * 2 ^ 63 + o.apend % 2 ^ 21 * 2 ^ 42 + o.aexp % 2 ^ 21 * 2 ^ 21, wrapN 40 o.bpend * 2 ^ 24 + o.lid % 2 ^ 24,
   o.ledge % 2 ^ 48 * 2 ^ 16 + o.kind % 2 ^ 16, 0]

/-- `KIND` names an initialised object. -/
def Obj.ready (o : Obj) : Bool := o.kind == 0x0B01 || o.kind == 0x0B02 || o.kind == 0x0B03

/-- Reads the object at a location. -/
def State.obj (s : State) (loc : Nat) : Obj := Obj.ofWords (s.rd loc 8) (s.rd (loc + 8) 8) (s.rd (loc + 16) 8)

/-- A location of device register or PCIe space (R250): an object there is not initialised, and nothing changes it (log 28). -/
def devLoc (loc : Nat) : Bool := decide (hbmTop ≤ loc) && decide (loc < 2 ^ 52)

/-- Writes the object at a location, as one operation. -/
def State.putObj (s : State) (loc : Nat) (o : Obj) : State :=
  if devLoc loc then s else s.wr loc (o.words.flatMap (natLe 8 ·)) (stampOf o.ledge o.lid)

/-- The threads blocked in `BWAIT` on the object at a location. -/
def State.waiters (s : State) (loc : Nat) : List Nat :=
  (s.thr.filter fun (_, t) => t.st == .blocked && (match t.wait with | .barrier l _ => l == loc | _ => false)).map (·.1)

/-- A waiter is released with a new edge id. -/
def Thr.wakeBarrier (id : Nat) (t : Thr) : Thr :=
  match t.wait with
  | .barrier _ next => { t.pass next with edge := id }
  | _ => t

/-- CheckComplete (R269) on an object about to be written at a location: with both counts zero, the phase changes, the arrivals are expected
again, the Scribe of the object's home records the edge for the contexts of the waiters (R398), and the waiters are Ready and adopt it. -/
def State.objEnd (s : State) (loc va : Nat) (o : Obj) : State :=
  if o.apend = 0 ∧ o.bpend = 0 then
    let ws := s.waiters loc
    let (id, s) := s.newEdgeFor (s.locDie loc) (ws.map s.cidOf).eraseDups
      { kind := 1, waiter := match ws with | [t] => s.threadLid t | _ => noLid, prod := o.lid, obj := va % 2 ^ 56, pred := o.ledge }
    (ws.foldl (fun s t => s.modTh t (Thr.wakeBarrier id)) s).putObj loc { o with ph := !o.ph, apend := o.aexp }
  else s.putObj loc o

/-- The largest count of arrivals. -/
def maxArrive : Nat := 2 ^ 21 - 1
/-- The largest count of bytes pending. -/
def maxBytes : Int := 2 ^ 39 - 1

/-- `Arrive` (R272): none where it would trap with BARRIER_OVERFLOW. -/
def Obj.arrive (o : Obj) (n : Nat) (drop : Bool) (lid edge : Nat) : Option Obj :=
  if o.apend = 0 ∨ (drop ∧ o.aexp = 0) ∨ o.bpend + n > maxBytes then none
  else some { o with bpend := o.bpend + n, apend := o.apend - 1, aexp := if drop then o.aexp - 1 else o.aexp, lid, ledge := edge }

/-- The object at a location, named by an address of a context, is on a Migrating page, where engine writes wait (R264). -/
def State.objWaits (s : State) (loc va cid : Nat) : Bool := decide (loc < 2 ^ 52) && s.migrating (s.cx cid).asid va

/-- A post of bytes (R279). -/
def State.post (s : State) (loc va cid n : Nat) : State :=
  if s.objWaits loc va cid then s.late cid va (.post cid va n)
  else
    let o := s.obj loc
    s.objEnd loc va { o with bpend := o.bpend + n }

/-- A delivery of bytes by a channel (R279). -/
def State.deliver (s : State) (loc va cid n lid edge : Nat) : State :=
  if s.objWaits loc va cid then s.late cid va (.deliver cid va n lid edge)
  else
    let o := s.obj loc
    s.objEnd loc va { o with bpend := sextNat 40 (wrapN 40 (o.bpend - n)), lid, ledge := edge }

/-! ### The instructions (R270, R272, R273) -/

/-- The address of the object operand (R227, R270). -/
def xfAddr (f : Xf) (t : Thr) : Nat := if f.bsp = 0 then (t.val64 f.a).toNat % 2 ^ 56 else (t.val f.a).toNat

/-- The checks of an object's address (R272, orders 1 and 2), and the place it names. -/
def State.objAcs (s : State) (tid : Nat) (f : Xf) (rd wr : Bool) (e : Env) : Acs × State :=
  s.acs tid f.bsp 1 32 rd wr (xfAddr f (e.s0.th tid)) e.grp.pc

/-- A read of a poisoned object: nothing is performed and ECC_MEM stays pending (log 28). -/
def State.objEcc (s : State) (tid : Nat) (va : Nat) (wr : Bool) (e : Env) : State :=
  s.addErr tid { code := cEccMem, tval := .ofNat 64 va, seq := 0, wr, pc := e.grp.pc, va }

/-- A step on the object at the place found; in device space it is not initialised (log 28). -/
def objLane (f : Xf) (wr : Bool) (act : Nat → Nat → Obj → State → Lane) (e : Env) (tid : Nat) (s : State) : Lane :=
  let va := xfAddr f (e.s0.th tid)
  match s.objAcs tid f true wr e with
  | (.at (.loc n), s) => if s.poisoned n 32 then .done (s.objEcc tid va wr e) else act va n (s.obj n) s
  | (.at (.dev pa), s) => act va pa {} s
  | (.at _, s) => .done s
  | (a, _) => a.fail

/-- An arrival of a member (R272); D receives the phase. -/
def arriveLane (f : Xf) (n : Nat) (drop : Bool) (e : Env) (tid : Nat) (s : State) : Lane :=
  let t := e.s0.th tid
  if t.helper then
    if drop then .done s
    else match s.objAcs tid f true false e with
      | (.at (.loc l), s) => .done (s.modTh tid fun x => x.write f.d [if (s.obj l).ph then 1 else 0])
      | (_, s) => .done (s.modTh tid fun x => x.write f.d [0])
  else objLane f true (fun va loc o s =>
    if !o.ready then .trap (cBarrier, .ofNat 64 va)
    else match o.arrive n drop (s.threadLid tid) (t.edge % 2 ^ 48) with
      | none => .trap (cBarrier, .ofNat 64 va)
      | some o' =>
        let s := s.objEnd loc va o'
        .done (if drop then s else s.modTh tid fun x => x.write f.d [if o.ph then 1 else 0])) e tid s

/-- The kind of an object that `BINIT` makes in a space. -/
def binitKind (bsp : Nat) : Nat := match bsp with | 1 => 0x0B01 | 2 => 0x0B02 | _ => 0x0B03

/-- `BINIT` (R272). -/
def execBinit (f : Xf) (s : State) : Host.Outcome State Fault Refusal :=
  runWord (.binit f) (fun e tid s =>
    let t := e.s0.th tid
    let n := (t.val f.b).toNat
    let va := xfAddr f t
    if t.helper then .done s
    else match s.objAcs tid f true true e with
      | (.at p, s) =>
        if maxArrive < n then .trap (cBarrier, .ofNat 64 va)
        else match p with
          | .loc l => .done (s.putObj l { apend := n, aexp := n, kind := binitKind f.bsp })
          | _ => .done s
      | (a, _) => a.fail) s

/-- `BARV` (R272). -/
def execBarv (f : Xf) (s : State) : Host.Outcome State Fault Refusal := runWord (.barv f) (arriveLane f 0 false) s

/-- `BARX` (R272): B is read unsigned. -/
def execBarx (f : Xf) (s : State) : Host.Outcome State Fault Refusal :=
  runWord (.barx f) (fun e tid s => arriveLane f ((e.s0.th tid).val f.b).toNat false e tid s) s

/-- `BDROP` (R272). -/
def execBdrop (f : Xf) (s : State) : Host.Outcome State Fault Refusal := runWord (.bdrop f) (arriveLane f 0 true) s

/-- `BWAIT` (R273): the thread goes on when the phase differs from its token, and otherwise is Blocked at the slot. -/
def execBwait (f : Xf) (s : State) : Host.Outcome State Fault Refusal :=
  runWord (.bwait f) (fun e tid s =>
    objLane f false (fun _ loc o s =>
      if o.ph = ((e.s0.th tid).val f.b).getLsbD 0 then .block s (.barrier loc e.grp.nextPc) else .done s) e tid s) s

/-- `BTEST` (R273). -/
def execBtest (f : Xf) (s : State) : Host.Outcome State Fault Refusal :=
  runWord (.btest f) (fun e tid s =>
    objLane f false (fun _ _ o s =>
      let tok := ((e.s0.th tid).val f.b).getLsbD 0
      .done (s.modTh tid fun x => x.write f.d [.ofNat 32 ((o.ph != tok).toNat + 2 * o.ph.toNat)])) e tid s) s

end Sys2Proof.Machine
end

