-- ==== Sys2Proof/Machine/Packet.lean ====
section
/-!
DEFINITION. Packets as the command processors hold them (R50 to R52): their fields, the places their addresses name, signal updates
(R51, R53, R55, R221), and the end of a packet (R51, R61 to R64).
-/
namespace Sys2Proof.Machine

/-! ### Fields (R50, R52) -/

/-- Word `i` of a packet, as a number. -/
def pkWord (p : Packet) (i : Nat) : Nat := (p.words.getD i 0).toNat
/-- Word `i` of the next ring slot. -/
def pkExt (p : Packet) (i : Nat) : Nat := (p.ext.getD i 0).toNat
/-- `TYPE`. -/
def pkType (p : Packet) : Nat := bitsOf (pkWord p 0) 0 8
/-- `PTAG`. -/
def pkTag (p : Packet) : Nat := pkWord p 0 / 2 ^ 32
/-- `ORD`. -/
def pkOrd (p : Packet) : Bool := (pkWord p 0).testBit 8
/-- `CSIG`. -/
def pkCsig (p : Packet) : Bool := (pkWord p 0).testBit 9
/-- `EXT`. -/
def pkExtBit (p : Packet) : Bool := (pkWord p 0).testBit 10
/-- `COP`. -/
def pkCop (p : Packet) : Nat := bitsOf (pkWord p 0) 12 2
/-- The completion signal's address. -/
def pkSig (p : Packet) : Nat := pkWord p 6 % 2 ^ 56
/-- An address in bits 55:0 of a word. -/
def pkAddr (p : Packet) (i : Nat) : Nat := pkWord p i % 2 ^ 56
/-- Ring slots that a packet takes: a LAUNCH with `EXT` takes two. -/
def pkSlots (p : Packet) : Nat := if pkType p = 1 ∧ pkExtBit p then 2 else 1

/-- A handle entry (R52). -/
structure HAcc where
  t : Bool
  w : Bool
  r : Bool
  h : Nat
  deriving DecidableEq, Repr

/-- A handle entry from its 32 bits. -/
def HAcc.ofNat (x : Nat) : HAcc := { t := x.testBit 31, w := x.testBit 30, r := x.testBit 29, h := x % 2 ^ 24 }

/-- Handle entries of a LAUNCH, whatever `NH`. -/
def pkNh (p : Packet) : Nat := if pkType p = 7 then bitsOf (pkWord p 0) 28 4 else bitsOf (pkWord p 0) 27 5

/-- The handle entries of a LAUNCH or DEPEND; one with R = W = 0 is ignored (R62). -/
def pkHandles (p : Packet) : List HAcc :=
  let at' (e : Nat) : Nat := if pkType p = 7 then pkWord p (1 + e / 2) else pkExt p (e / 2)
  if pkType p = 1 ∧ !pkExtBit p then []
  else (((upto (min (pkNh p) 16)).map fun e => HAcc.ofNat (at' e / 2 ^ (32 * (e % 2))))).filter fun a => a.r || a.w

/-- Handle entry `e` of a LAUNCH. -/
def pkHandle (p : Packet) (e : Nat) : HAcc := HAcc.ofNat (pkExt p (e / 2) / 2 ^ (32 * (e % 2)))

/-- Queue fault codes (R49). -/
def qBadtype : Nat := 1
/-- BADFIELD. -/
def qBadfield : Nat := 2
/-- NOCTX. -/
def qNoctx : Nat := 4
/-- ACCESS. -/
def qAccess : Nat := 5

/-- Reads `n` 8-byte words of a context's memory; none when one fails. -/
def State.hwRdWords (s : State) (cid va : Nat) : Nat → Option (List Nat) × State
  | 0 => (some [], s)
  | k + 1 =>
    match s.hwRdWords cid va k with
    | (none, s) => (none, s)
    | (some ws, s) =>
      match s.hwRd cid (va + 8 * k) 8 with
      | (some w, s) => (some (ws ++ [w]), s)
      | (none, s) => (none, s)

/-! ### Places of a CP's accesses -/

/-- The place of an address for a CP, at level F (R53, R258): the cause when it fails. -/
def State.cpPlace (s : State) (cid va : Nat) (rd wr : Bool) : Except Nat Place × State :=
  if spliceVa ≤ va then (.error cAccess, s)
  else match s.xlat cid none (leadDie (s.cx cid).dies) va with
    | (.error _, s) => (.error cPageFatal, s)
    | (.ok x, s) =>
      if x.held.st = 6 ∨ (rd ∧ !pteR x.pte) ∨ (wr ∧ !pteW x.pte) ∨ (pteKind x.pte = 2 ∧ pteGdn x.pte / 2 ^ 10 ≠ s.pkg.pod) then
        (.error cAccess, s)
      else match x.place s va with
        | .loc n => (.ok (.loc n), s.fill n)
        | .fab g pa => (.ok (.fab g pa), s)
        | _ => (.error cAccess, s)

/-- The record of a CP's access that failed (R258, R260), with the code of the NAK that ended a fabric request (R358). -/
def State.cpRec (s : State) (cid q code va : Nat) (wr : Bool) (grid : Nat := 0) (nak : Nat := 0) : State :=
  (s.faultRec cid { cause := code, agent := 5, rd := !wr, wr, va, grid, core := (s.qv q).die, nak }).2

/-- The place of an address that a packet of a queue names, here or at another device; one that fails leaves a record (R258). -/
def State.cpAcs (s : State) (q cid va : Nat) (rd wr : Bool) : Option Place × State :=
  match s.cpPlace cid va rd wr with
  | (.ok (.loc n), s) => (some (.loc n), s)
  | (.ok (.fab g pa), s) => (some (.fab g pa), s)
  | (.ok _, s) => (none, s.cpRec cid q cAccess va wr)
  | (.error c, s) => (none, s.cpRec cid q c va wr)

/-- The record of a word that a packet of a queue names and that could not be read (R258); none for a look at a packet that is not beginning. -/
def State.wordFail (s : State) (q : Option Nat) (cid va : Nat) : State :=
  match q with
  | none => s
  | some q => match s.cpPlace cid va true false with
    | (.error c, s) => s.cpRec cid q c va false
    | (.ok _, s) => s.cpRec cid q cAccess va false

/-- Reads `n` 8-byte words that a packet names; one that fails leaves a record when the packet is beginning on a queue. -/
def State.cpWords (s : State) (q : Option Nat) (cid va : Nat) : Nat → Option (List Nat) × State
  | 0 => (some [], s)
  | k + 1 =>
    match s.cpWords q cid va k with
    | (none, s) => (none, s)
    | (some ws, s) =>
      match s.hwRd cid (va + 8 * k) 8 with
      | (some w, s) => (some (ws ++ [w]), s)
      | (none, s) => (none, s.wordFail q cid ((va + 8 * k) % 2 ^ 56))

/-- The mark of a queue's CP thread on its writes. -/
def State.cpStamp (s : State) (q : Nat) : Nat := let h := s.qv q; stampOf h.edge (cpLid h.die h.thr)

/-- The new value of a signal: set, add or unsigned max (R50). -/
def signalNew (op x old : Nat) : Nat := if op = 0 then x else if op = 1 then (old + x) % 2 ^ 64 else max old x

/-- The atomic that does the same at another device. -/
def signalAop (op : Nat) : Nat := if op = 0 then 6 else if op = 1 then 0 else 2

/-- A signal update by a queue's CP thread (R51, R53, R221): one read-modify-write here or at the device the address names; none while the page
migrates (R264), or with no room among the fabric requests. -/
def State.signalNow (s : State) (q cid addr op : Nat) (val : DWord) : Option State :=
  match s.cpPlace cid addr true true with
  | (.ok (.loc n), s) =>
    if s.migrating (s.cx cid).asid addr || (s.frameMigrating n).isSome then none
    else some (s.rmw n 8 (signalNew op val.toNat) (s.cpStamp q)).2
  | (.ok (.fab g pa), s) =>
    if g = s.gdn then some (s.fabMem 4 (16 * signalAop op + 3) 3 pa (s.cpStamp q) (natLe 8 val.toNat)).2
    else (s.request (.cp q) 4 g (16 * signalAop op + 3) 3 pa (s.qv q).edge (natLe 8 val.toNat) addr).map (·.2)
  | (.ok _, s) => some (s.cpRec cid q cAccess addr true)
  | (.error c, s) => some (s.cpRec cid q c addr true)

/-- A signal update of a queue's CP thread waits; what the thread does next waits for it (R208, R210, R219). -/
def State.sigWaits (s : State) (q : Nat) : Bool := s.fab.sigs.any fun x => x.1 == q

/-- A signal update, or its wait behind the earlier ones of its queue (R219): signals of one CP thread keep their order. -/
def State.signal (s : State) (q cid addr op : Nat) (val : DWord) : State :=
  let wait : State := { s with fab := { s.fab with sigs := s.fab.sigs ++ [(q, cid, addr, op, val)] } }
  if s.sigWaits q then wait else (s.signalNow q cid addr op val).getD (wait.late cid addr .signals)

/-- The signal updates that wait are tried again, oldest first; one that still waits keeps the later ones of its queue waiting. -/
def State.flushSigs (s : State) : State :=
  s.fab.sigs.foldl (fun s x => s.signal x.1 x.2.1 x.2.2.1 x.2.2.2.1 x.2.2.2.2) { s with fab := { s.fab with sigs := [] } }

/-! ### The end of a packet (R51) -/

/-- The packet's own completion signal. -/
def State.pkSignal (s : State) (p : OutPkt) : State :=
  if p.w0.getLsbD 9 then s.signal p.q p.cid (p.w6.toNat % 2 ^ 56) (bitsOf p.w0.toNat 12 2) p.w7 else s

/-- A packet completes: its signal is updated after every effect of it, and its handle entries are released. -/
def State.packetDone (s : State) (q idx : Nat) : State :=
  match s.pkts.find? fun p => p.q == q && p.idx == idx && p.begun with
  | some p => (s.pkSignal p).dropPkt q idx
  | none => s

/-! ### Packets in the ring (R46, R50, R51) -/

/-- The address of a ring slot. -/
def State.ringVa (s : State) (q idx : Nat) : Nat := (s.qring q + 64 * (idx % 2 ^ s.qsz q)) % 2 ^ 56

/-- The packet at a ring index, with the next slot when it is a LAUNCH with `EXT`; none when a read fails. -/
def State.readPacket (s : State) (q idx : Nat) : Option Packet × State :=
  let cid := (s.qv q).cid
  match s.hwRdWords cid (s.ringVa q idx) 8 with
  | (none, s) => (none, s)
  | (some w, s) =>
    let p : Packet := { words := w.map (BitVec.ofNat 64 ·), ext := [] }
    if pkSlots p = 1 then (some p, s)
    else match s.hwRdWords cid (s.ringVa q (idx + 1)) 8 with
      | (none, s) => (none, s)
      | (some e, s) => (some { p with ext := e.map (BitVec.ofNat 64 ·) }, s)

/-- Packets between two free-running indexes. -/
def ahead (w r : Nat) : Nat := (w + 2 ^ 32 - r) % 2 ^ 32

/-- `ORD` allows a packet to begin. -/
def State.ordOk (s : State) (q : Nat) (p : Packet) : Bool := !pkOrd p || s.pkts.all fun x => x.q != q || !x.begun

/-- The packets of a list have completed. -/
def State.preOk (s : State) (pre : List (Nat × Nat)) : Bool := pre.all fun x => !(s.pkts.any fun p => p.q == x.1 && p.idx == x.2)

/-- The accepted packet of a queue at an index (R62). -/
def State.acceptedAt (s : State) (q idx : Nat) : Option OutPkt := s.pkts.find? fun p => p.q == q && p.idx == idx && !p.begun

/-! ### The buffer handle table (R61, R62) -/

/-- The entry of a handle. -/
def State.hent (s : State) (dies cid h : Nat) : Option HEnt := s.handles.find? fun e => e.dies == dies && e.cid == cid && e.handle == h

/-- The table has room for a packet's entries, and its handles for its readers. -/
def State.handleRoom (s : State) (dies cid : Nat) (hs : List HAcc) : Bool :=
  let new := ((hs.map (·.h)).eraseDups.filter fun h => (s.hent dies cid h).isNone).length
  let readers (h : Nat) : Nat := match s.hent dies cid h with | some e => e.readers.length | none => 0
  decide ((s.handles.filter (·.dies == dies)).length + new ≤ 16384) &&
    hs.all fun a => !a.r || decide (readers a.h + (hs.filter fun b => b.r && b.h == a.h).length ≤ 32)

/-- An entry accepts an access of a packet. -/
def HEnt.take (e : HEnt) (a : HAcc) (me : Nat × Nat) : HEnt :=
  { e with writer := if a.w then some me else e.writer, readers := if a.r then e.readers ++ [me] else e.readers
           transient := if a.w then a.t else e.transient, vacated := if a.w then false else e.vacated }

/-- The earlier packets that an access is ordered after. -/
def HEnt.before (e : HEnt) (a : HAcc) (me : Nat × Nat) : List (Nat × Nat) :=
  (e.writer.toList ++ (if a.w then e.readers else [])).filter (· != me)

/-- The pages of an address space that are Vacated under a handle return to Mapped (R63). -/
def State.unvacate (s : State) (asid h : Nat) : State :=
  { s with held := s.held.map fun x => (x.1, if x.1 / 2 ^ 40 = asid ∧ x.2.handle = h ∧ x.2.st = 6 then { x.2 with st := 1 } else x.2) }

/-- The accesses of a packet are accepted: the packets it begins after, with every earlier writer that is outstanding for a W, and the
table. -/
def State.takeHandles (s : State) (dies cid : Nat) (me : Nat × Nat) : List HAcc → List (Nat × Nat) × State
  | [] => ([], s)
  | a :: as =>
    let e := (s.hent dies cid a.h).getD
      { dies, cid, handle := a.h, writer := none, readers := [], transient := false, vacated := false }
    let rest := s.handles.filter fun x => !(x.dies == dies && x.cid == cid && x.handle == a.h)
    let s := { s with handles := rest ++ [e.take a me] }
    let s := if a.w then s.unvacate (s.cx cid).asid a.h else s
    let older := if a.w then (s.pkts.filter fun p => p.cid == cid && p.writes.contains a.h).map fun p => (p.q, p.idx) else []
    let (pre, s) := s.takeHandles dies cid me as
    (e.before a me ++ older ++ pre, s)

/-- A packet as the CPs hold it. -/
def outPkt (q idx cid : Nat) (p : Packet) (begun : Bool) : OutPkt :=
  { q, idx, cid, kind := pkType p, w0 := .ofNat 64 (pkWord p 0), w6 := .ofNat 64 (pkWord p 6), w7 := .ofNat 64 (pkWord p 7)
    crec := if pkType p = 1 then pkAddr p 4 else 0, begun, writes := ((pkHandles p).filter (·.w)).map (·.h) }

/-- A packet is accepted into the order of R62. -/
def State.acceptPkt (s : State) (cid q idx : Nat) (p : Packet) : State :=
  let (pre, s) := s.takeHandles (s.cx cid).dies cid (q, idx) (pkHandles p)
  { s with pkts := s.pkts ++ [{ outPkt q idx cid p false with pre }] }

/-- The queue's CP thread stands at a packet: mapped, with no WAIT and no waiting signal update in hand, and the doorbell has passed `n` slots (log 33);
while the page of its ring status block migrates, no packet begins, since `RIDX` is written there first (R46, R208, R264). -/
def State.standsAt (s : State) (q n : Nat) : Bool :=
  let h := s.qv q
  h.mapped && h.qst == 2 && h.wakea == 0 && decide (n ≤ ahead h.widx h.ridx) && !s.sigWaits q && (s.hwWaits h.cid (s.ringEnd q % 2 ^ 56)).isNone

/-- The packet's schedule slot is not free to be loaded or armed (R373, R374). -/
def State.slotBusy (s : State) (p : Packet) : Bool := let st := (s.sl (bitsOf (pkWord p 0) 16 6)).st; 3 ≤ st && st ≤ 5

/-- The first channel of a partition's cores with room for a transfer (log 8). -/
def State.copyChan (s : State) (dies : Nat) : Option (Nat × Nat) :=
  (((upto 320).filter fun c => inMask dies (coreDie c) && !(s.co c).retired).flatMap fun c => (upto 4).map fun k => (c, k)).find? fun x =>
    let k := (s.co x.1).chan x.2
    decide (k.xs.length < 16) && !k.faulted

/-- What a packet needs beside its orderings is free: the slot of a LOADSCHED or RUNSCHED, or a channel for a COPY (R53, R373, R374). -/
def State.resourceFree (s : State) (q : Nat) (p : Packet) : Bool :=
  let x := s.sl (bitsOf (pkWord p 0) 16 6)
  match pkType p with
  | 4 => (s.copyChan (s.cx (s.qv q).cid).dies).isSome
  | 5 => !s.slotBusy p && x.loader.isNone
  | 6 => !(s.slotBusy p && x.cid == (s.qv q).cid)
  | _ => true

/-- A queue holds a packet that may be accepted or may begin (R51, R56); one that cannot be read faults, which is work as well. -/
def State.pktReady (s : State) (q : Nat) : Bool :=
  s.standsAt q 1 &&
    match (s.readPacket q (s.qv q).ridx).1 with
    | none => true
    | some p =>
      let cid := (s.qv q).cid
      s.standsAt q (pkSlots p) && s.ordOk q p && s.resourceFree q p &&
        (match s.acceptedAt q (s.qv q).ridx with
         | some e => s.preOk e.pre
         | none => (pkType p != 1 && pkType p != 7) || s.handleRoom (s.cx cid).dies cid (pkHandles p))

/-- The mapped queues of a partition. -/
def State.mappedOn (s : State) (dies : Nat) : List Nat :=
  (s.q.filter fun x => x.2.mapped && inMask dies x.2.die).map (·.1)

end Sys2Proof.Machine
end

