-- ==== Sys2Proof/Machine/Transfer.lean ====
section
/-!
DEFINITION. Templates, transfers, channels and publish (R275 to R285).
-/
namespace Sys2Proof.Machine

/-! ### Templates (R275) -/

/-- A dimension record. -/
def State.readDim (s : State) (loc : Nat) : Dim :=
  { dim := s.rd loc 4, str := s.rd (loc + 8) 8, box := s.rd (loc + 16) 8 % 2 ^ 11 }

/-- The template at a location. -/
def State.readTmpl (s : State) (loc : Nat) : Tmpl :=
  let w (o : Nat) : Nat := s.rd (loc + o) 8
  let c := w 0x10
  { tbase := w 0 % 2 ^ 56, hv := (w 8).testBit 31, handle := w 8 % 2 ^ 24, v := c.testBit 63, edge := bitsOf c 24 3,
    elt := bitsOf c 16 4, dk := bitsOf c 12 2, esz := bitsOf c 4 3, rank := c % 8, fill := w 0x18 + 2 ^ 64 * w 0x20,
    order := w 0x28 % 2 ^ 15, pitch := w 0x30 % 2 ^ 32, dims := (upto 5).map fun d => s.readDim (loc + 0x40 + 32 * d) }

/-- A template that device space reads as. -/
def Tmpl.zero : Tmpl :=
  { tbase := 0, hv := false, handle := 0, v := false, edge := 0, elt := 0, dk := 0, esz := 0, rank := 0, fill := 0, order := 0,
    pitch := 0, dims := [] }

/-- Element size e. -/
def Tmpl.e (t : Tmpl) : Nat := 2 ^ t.esz
/-- Dimension d. -/
def Tmpl.dim (t : Tmpl) (d : Nat) : Dim := t.dims.getD d { dim := 1, str := 0, box := 1 }
/-- `BOX`d; 1 at and above `RANK`. -/
def Tmpl.boxOf (t : Tmpl) (d : Nat) : Nat := if d < t.rank then (t.dim d).box else 1
/-- o[j]: the dimension placed j-th innermost. -/
def Tmpl.ord (t : Tmpl) (j : Nat) : Nat := if t.order = 0 then j else bitsOf t.order (3 * j) 3
/-- P[j]: the place value of the dimension placed j-th innermost (R278). -/
def Tmpl.place (t : Tmpl) : Nat → Nat
  | 0 => t.e
  | 1 => if t.pitch ≠ 0 then t.pitch else t.e * t.boxOf (t.ord 0)
  | j + 2 => t.place (j + 1) * t.boxOf (t.ord (j + 1))
/-- F: the footprint in scratchpad (R278). -/
def Tmpl.foot (t : Tmpl) : Nat := t.place (t.rank - 1) * t.boxOf (t.ord (t.rank - 1))
/-- Elements of the box. -/
def Tmpl.count (t : Tmpl) : Nat := (upto t.rank).foldl (fun n d => n * t.boxOf d) 1
/-- Bytes of the box. -/
def Tmpl.boxBytes (t : Tmpl) : Nat := t.e * t.count

/-- The fields of `ORDER` below `RANK` are a permutation. -/
def Tmpl.orderOk (t : Tmpl) : Bool := t.order == 0 || (upto t.rank).all fun d => ((upto t.rank).map t.ord).contains d

/-- The canonical NaN of an element type, in e bytes (R275). -/
def canonNan (ty : Ty) : Nat :=
  let c := (ffmt ty).cnan
  if ty == .h2 || ty == .b2 then c + 2 ^ 16 * c else c

/-- The first of the checks 3 to 9 of R277 that a template fails, as its reason. -/
def Tmpl.reason (t : Tmpl) (store : Bool) : Option Nat :=
  let ty := Ty.ofCode t.elt
  let ds := (upto t.rank).map t.dim
  if !t.v then some 1
  else if t.rank = 0 ∨ 5 < t.rank then some 2
  else if 4 < t.esz ∨ 3 < t.edge ∨ (t.edge = 1 ∧ (!ty.floating ∨ ty.bits ≠ 8 * t.e)) then some 3
  else if ds.any fun d => d.dim == 0 || d.box == 0 || decide (1024 < d.box) then some 4
  else if t.tbase % t.e ≠ 0 ∨ ds.any (fun d => d.str % t.e != 0) then some 5
  else if t.dk ≠ (if store then 1 else 0) then some 6
  else if !t.orderOk then some 9
  else none

/-- Check 10 of R277, apart from the bound: the pitch, and the alignment of the scratchpad address. -/
def Tmpl.spadOk (t : Tmpl) (c : Nat) : Bool :=
  (t.rank < 2 || t.pitch == 0 || (t.pitch % t.e == 0 && decide (t.e * t.boxOf (t.ord 0) ≤ t.pitch))) && c % t.e == 0

/-- The checks 11 and 12 of R277 for a post. -/
def State.postCheck (s : State) (t : Tmpl) (obj : Option (Nat × Nat)) (nopost : Bool) : Option Cause :=
  match obj with
  | none => none
  | some (l, va) =>
    let o := s.obj l
    if nopost then none
    else if !o.ready then some (cTemplate, .ofNat 64 (8 * 256))
    else if o.bpend + t.boxBytes > maxBytes then some (cBarrier, .ofNat 64 va)
    else none

/-! ### Element operations (R278, R279, R281) -/

/-- Index of box dimension d of element n, dimension 0 fastest (log 8). -/
def Tmpl.index (t : Tmpl) (n d : Nat) : Nat := n / ((upto d).foldl (fun m k => m * t.boxOf k) 1) % t.boxOf d

/-- The coordinates of element n, and whether it lies inside the tensor. -/
def Xfer.coords (x : Xfer) (n : Nat) : List Int :=
  (upto x.tmpl.rank).map fun d => x.coord.getD d 0 + (x.tmpl.index n d : Int)

/-- An element is inside the tensor. -/
def Xfer.inside (x : Xfer) (n : Nat) : Bool :=
  ((upto x.tmpl.rank).zip (x.coords n)).all fun (d, c) => decide (0 ≤ c) && decide (c < ((x.tmpl.dim d).dim : Int))

/-- g of R278: the global address of coordinates. -/
def Xfer.global (x : Xfer) (cs : List Int) : Nat :=
  wrapN 56 (((upto cs.length).zip cs).foldl (fun (a : Int) p => a + p.2 * ((x.tmpl.dim p.1).str : Int)) (x.tmpl.tbase : Int))

/-- The clamped coordinates of `EDGE` = 3. -/
def Xfer.clamped (x : Xfer) (n : Nat) : List Int :=
  ((upto x.tmpl.rank).zip (x.coords n)).map fun (d, c) => max 0 (min c (((x.tmpl.dim d).dim : Int) - 1))

/-- The location of s of R278. -/
def Xfer.spadLoc (x : Xfer) (n : Nat) : Nat :=
  x.base + x.c + ((upto x.tmpl.rank).map fun j => x.tmpl.index n (x.tmpl.ord j) * x.tmpl.place j).sum

/-- The fill of an element outside the tensor. -/
def Tmpl.fillVal (t : Tmpl) : Nat :=
  match t.edge with
  | 0 => 0
  | 1 => canonNan (Ty.ofCode t.elt)
  | _ => t.fill % 2 ^ (8 * t.e)

/-- What an engine's access to an address comes to (R258, R281; at level U, log 29). -/
inductive EngAcs where
  | ok (x : Xlat) (p : Place)
  | fail (code : Nat)
  /-- A write waits in its engine for a Migrating page (R264), by its record; its place as it is now. -/
  | wait (p : Place) (key : Nat)
  deriving DecidableEq, Repr

/-- The access of an engine of a context to an address, or, `live`, an arrival's to the live frame whatever the page's state (R385). -/
def State.engAcs (s : State) (cid die va : Nat) (rd wr : Bool) (live : Bool := false) : EngAcs × State :=
  if spliceVa ≤ va then (.fail cAccess, s)
  else match s.xlat cid none die va with
    | (.error _, s) => (.fail cPageFatal, s)
    | (.ok x, s) =>
      if !x.permits s .u 1 rd wr then (.fail cAccess, s)
      else if x.held.st = 6 ∧ !live then (.fail cVacated, s)
      else match (if wr then x.waitsOn s (s.cx cid).asid va else none) with
        | some k => (.wait (x.place s va) k, s)
        | none => match x.place s va with
          | .dev pa => (if inCtxWindows pa then .fail cAccess else .ok x (.dev pa), s)
          | p => (.ok x p, s.fillAt p)

/-- The record of an engine's failed access (R260): agent 2 BTU, 3 COPY, 4 Truss, 5 CP; `core` holds its number. -/
def engRec (agent code va : Nat) (wr : Bool) (core : Nat) (pc kid : DWord) (grid : Nat) : FRec :=
  { cause := code, agent, rd := !wr, wr, va, grid, pc, kid, opc := pc, core }

/-- An element operation of a channel fails (R281): it is Faulted, a record is written, and the starting thread has a deferred error, or
the aperture reports it. -/
def State.xferFail (s : State) (core ch : Nat) (x : Xfer) (code va : Nat) : State :=
  let s := s.modCo core fun c => c.modChan ch fun k =>
    { k with faulted := true, lasterr := if x.tid.isNone && x.copy.isNone then 4 else k.lasterr }
  let (kid, opc, grid) : DWord × DWord × Nat := match x.tid with
    | some t => ((s.original t x.pc).2.1, (s.original t x.pc).2.2, (s.gridOf t).num)
    | none => (0, 0, 0)
  let s := (s.faultRec x.cid { engRec (if x.copy.isSome then 3 else 2) code va x.store x.num x.pc kid grid with opc }).2
  match x.tid with
  | some t =>
    if s.resident t then
      let e : DErr := { code, tval := .ofNat 64 va, seq := x.seq, wr := x.store, pc := x.pc, va }
      if (s.th t).st = .exited then s.exitErr t e else s.modTh t fun th => { th with errs := th.errs ++ [e] }
    else s
  | none => s

/-- The value of an element that `BXC` writes, or what stops it. -/
def State.elemSource (s : State) (x : Xfer) (die n : Nat) : Except (Nat × Nat) Nat × State :=
  let t := x.tmpl
  if !x.inside n && t.edge != 3 then (.ok t.fillVal, s)
  else
    let va := x.global (if x.inside n then x.coords n else x.clamped n)
    match s.engAcs x.cid die va true false with
    | (.ok _ (.loc l), s) => (if s.poisoned l t.e then .error (cEccMem, va) else .ok (s.rd l t.e), s)
    | (.ok _ (.dev pa), s) => let (v, s) := s.devRead pa t.e; (.ok v, s)
    | (.ok _ _, s) => (.error (cAccess, va), s)
    | (.fail c, s) => (.error (c, va), s)
    | (.wait _ _, s) => (.ok 0, s)

/-- An element was performed: its delivery follows (R279), and a transfer whose last element it is leaves the channel; a COPY packet then
completes (R51). -/
def State.elemDone (s : State) (core ch n : Nat) (x : Xfer) : State :=
  let s := s.modCo core fun c => c.modChan ch fun k =>
    { k with xs := match k.xs with
        | y :: ys => if y.done.length + 1 = x.tmpl.count then ys else { y with done := y.done ++ [n] } :: ys
        | [] => [] }
  match x.obj, x.copy with
  | some (l, va), _ => s.deliver l va x.cid x.tmpl.e (chanLid core ch) x.edge
  | none, some (q, idx, _) => if x.done.length + 1 = x.tmpl.count then s.packetDone q idx else s
  | none, none => s

/-- Byte n of a COPY packet (R53): an engine write of the byte at the source. -/
def State.copyStep (s : State) (core ch n dst : Nat) (x : Xfer) : State :=
  match s.elemSource x (coreDie core) n with
  | (.error (c, va), s) => s.xferFail core ch x c va
  | (.ok v, s) =>
    let va := (dst + n) % 2 ^ 56
    match s.engAcs x.cid (coreDie core) va false true with
    | (.ok pg (.loc l), s) =>
      (s.engineWrite (s.cx x.cid).asid pg va l (natLe 1 v) (stampOf x.edge (chanLid core ch))).elemDone core ch n x
    | (.ok _ (.dev pa), s) => (s.devWrite pa 1 v).elemDone core ch n x
    | (.ok _ _, s) => s.xferFail core ch x cAccess va
    | (.fail c, s) => s.xferFail core ch x c va
    | (.wait _ k, s) => s.lateAt k (.event (.btuElement core ch n))

/-- The object of a transfer is on a Migrating page. -/
def State.xferWaits (s : State) (x : Xfer) : Option Nat :=
  x.obj.bind fun o => if s.objWaits o.1 o.2 x.cid then some o.2 else none

/-- Element n of the transfer at the head of a channel; one whose delivery would wait for a Migrating page waits with it (R264). -/
def State.elemStep (s : State) (core ch n : Nat) (x : Xfer) : State :=
  let die := coreDie core
  if let some va := s.xferWaits x then s.late x.cid va (.event (.btuElement core ch n))
  else if let some (_, _, dst) := x.copy then s.copyStep core ch n dst x
  else if x.store then
    if !x.inside n then s.elemDone core ch n x
    else
      let va := x.global (x.coords n)
      let bs := s.bytes (x.spadLoc n) x.tmpl.e
      match s.engAcs x.cid die va false true with
      | (.ok pg (.loc l), s) => (s.engineWrite (s.cx x.cid).asid pg va l bs (stampOf x.edge (chanLid core ch))).elemDone core ch n x
      | (.ok _ (.dev pa), s) => (s.devWrite pa x.tmpl.e (leNat bs)).elemDone core ch n x
      | (.ok _ _, s) => s.xferFail core ch x cAccess va
      | (.fail c, s) => s.xferFail core ch x c va
      | (.wait _ k, s) => s.lateAt k (.event (.btuElement core ch n))
  else
    match s.elemSource x die n with
    | (.ok v, s) => (s.wrN (x.spadLoc n) x.tmpl.e v (stampOf x.edge (chanLid core ch))).elemDone core ch n x
    | (.error (c, va), s) => s.xferFail core ch x c va

/-- BTU_ELEMENT (R279): element n of the running transfer, when it is not performed yet. -/
def execBtuElement (core ch n : Nat) (s : State) : Host.Outcome State Fault Refusal :=
  .next (match ((s.co core).chan ch).xs with
    | x :: _ =>
      if ((s.co core).chan ch).faulted ∨ x.tmpl.count ≤ n ∨ x.done.contains n then s else s.elemStep core ch n x
    | [] => s)

/-! ### Starting a transfer (R277) -/

/-- The transfers that a channel's queue holds (R280). -/
def chanCap : Nat := 16

/-- The queue of a channel is full (R280). -/
def State.chanFull (s : State) (core ch : Nat) : Bool := decide (chanCap ≤ ((s.co core).chan ch).xs.length)

/-- A transfer enters its channel, after its post. -/
def State.startXfer (s : State) (core ch : Nat) (x : Xfer) (nopost : Bool) : State :=
  let s := match x.obj with
    | some (l, va) => if nopost then s else s.post l va x.cid x.tmpl.boxBytes
    | none => s
  { s with fresh := s.fresh + 1 }.modCo core fun c => c.modChan ch fun k =>
    { k with xs := k.xs ++ [{ x with seq := s.fresh }] }

/-- The address of a template (R275). -/
def State.tmplVa (s : State) (cid num : Nat) : Nat := ((s.cx cid).tmplbase + 256 * num) % 2 ^ 56

/-- The template at a place; none where its sectors are marked (R256). -/
def State.tmplOf (s : State) : Place → Option Tmpl
  | .loc l => if s.poisoned l 256 then none else some (s.readTmpl l)
  | _ => some .zero

/-- A template is read at its place, whose two lines are filled. -/
def State.tmplIn (s : State) (p : Place) : Option Tmpl × State :=
  let s := match p with | .loc l => s.fills l 256 | _ => s
  (s.tmplOf p, s)

/-- The template that a word names, when its page permits the read: checks 3 to 5 of R228, so that a Vacated page is read. -/
def State.tmplAt (s : State) (tid cid num : Nat) (pc : DWord) : Except Acs (Option Tmpl) × State :=
  let va := s.tmplVa cid num
  match s.pageAcs tid 1 true false va pc with
  | (.at p, s) => let (t, s) := s.tmplIn p; (.ok t, s)
  | (.trap (c, v), s) =>
    if c = cVacated then match (s.xlat cid none 0 va).1 with
      | .ok x => let (t, s) := s.tmplIn (x.place s va); (.ok t, s)
      | .error _ => (.error (.trap (c, v)), s)
    else (.error (.trap (c, v)), s)
  | (a, s) => (.error a, s)

/-- The coordinates of a transfer word. -/
def xfCoord (f : Xf) (t : Thr) : List Int := (t.vals 5 f.b).map (·.toInt)

/-- The region and bound of a transfer's scratchpad address (R277 order 10, R278, R316): location of its address 0, the offset in it,
and the bytes it may reach; none outside every region. -/
def State.xfSpad (s : State) (tid : Nat) (dcl : Bool) (c addr : Nat) : Option (Nat × Nat × Nat) :=
  let (add, bound) := s.spadWin tid addr
  let b := s.blkOf tid
  if dcl then
    if 2 ^ 22 ≤ c ∨ (s.gridOf tid).csize ≤ c / 2 ^ 19 then none
    else
      let r := s.rankSpad tid (c / 2 ^ 19)
      some (spadLoc r.1 (r.2 + add), c % 2 ^ 19, bound)
  else some (spadLoc b.core (b.spadBase + add), c, bound)

/-- The object of a transfer word: none for `vz`. -/
def State.xfObj (s : State) (tid : Nat) (f : Xf) (e : Env) : Except Acs (Option (Nat × Nat)) × State :=
  if f.a = .vz then (.ok none, s)
  else match s.objAcs tid f true true e with
    | (.at (.loc l), s) | (.at (.dev l), s) => (.ok (some (l, xfAddr f (e.s0.th tid))), s)
    | (.at _, s) => (.ok none, s)
    | (a, s) => (.error a, s)

/-- A member's transfer enters its channel; one that finds the queue full waits in its group, which stalls until places free (R280; log 106). -/
def State.enterXfer (s : State) (core ch : Nat) (x : Xfer) (nopost : Bool) : Lane :=
  if s.chanFull core ch then
    .hold (s.modCo core fun c => { c with grp := c.grp.map fun g => { g with waitX := g.waitX ++ [x] } })
  else .done (s.startXfer core ch x nopost)

/-- The transfers that wait enter in their order as places free; those that go on waiting. -/
def State.enterMore (s : State) (core ch : Nat) (nopost : Bool) : List Xfer → List Xfer × State
  | [] => ([], s)
  | x :: xs => if s.chanFull core ch then (x :: xs, s) else (s.startXfer core ch x nopost).enterMore core ch nopost xs

/-- The step of `BXC` and `BXS` (R277). -/
def stepBx (f : Xf) (store : Bool) (e : Env) (tid : Nat) (s : State) : Lane :=
  let t := e.s0.th tid
  let num := f.tmpl.toNat
  let cid := s.cidOf tid
  let nopost := f.mod.getLsbD 2
  let c := (t.val f.c).toNat
  let bad (r : Nat) : Lane := .trap (cTemplate, .ofNat 64 (num + 256 * r))
  if t.helper then .done s
  else match s.tmplAt tid cid num e.grp.pc with
    | (.error a, _) => a.fail
    | (.ok none, s) => .done (s.objEcc tid (s.tmplVa cid num) false e)
    | (.ok (some tm), s) =>
      match s.xfObj tid f e with
      | (.error a, _) => a.fail
      | (.ok obj, s) =>
        match tm.reason store with
        | some r => bad r
        | none =>
          match s.xfSpad tid (!store && f.mod.getLsbD 3) c (pcAddr e.grp.pc) with
          | none => bad 7
          | some (base, off, bound) =>
            if !tm.spadOk c ∨ bound < off + tm.foot then bad 7
            else match s.postCheck tm obj nopost with
              | some (k, v) => .trap (k, if k = cTemplate then v + .ofNat 64 num else v)
              | none =>
                s.enterXfer e.core f.ch.toNat
                  { tid := some tid, cid, num, pc := e.grp.pc, tmpl := tm, store, coord := xfCoord f t, base, c := off, obj,
                    edge := t.edge % 2 ^ 48, seq := 0, done := [] } nopost

/-- A slot whose transfers wait for places goes on: those that find one enter, and the slot ends when none waits any more (R280). -/
def State.moreXfers (s : State) (e : Env) (f : Xf) : State :=
  let (xs, s) := s.enterMore e.core f.ch.toNat (f.mod.getLsbD 2) e.grp.waitX
  if xs.isEmpty then s.endSlot e [] []
  else s.modCo e.core fun c => { c with grp := some { e.grp with waitX := xs } }

/-- A slot of `BXC` or `BXS`: its checks and starts, or what is left of them. -/
def runBx (i : Instr) (f : Xf) (store : Bool) (s : State) : Host.Outcome State Fault Refusal :=
  match s.cur, i.core with
  | some g, some (op, b) => .next (if g.waitX.isEmpty then s.runSlot g op b (stepBx f store) else s.moreXfers (s.env g op b) f)
  | _, _ => .fault .noGroup

/-- `BXC` (R277). -/
def execBxc (f : Xf) (s : State) : Host.Outcome State Fault Refusal := runBx (.bxc f) f false s

/-- `BXS` (R277). -/
def execBxs (f : Xf) (s : State) : Host.Outcome State Fault Refusal := runBx (.bxs f) f true s

/-- `TMPL` (R276): one store of 32 bytes. -/
def execTmpl (f : Xf) (s : State) : Host.Outcome State Fault Refusal :=
  runWord (.tmpl f) (fun e tid s =>
    let t := e.s0.th tid
    let va := ((s.cx (s.cidOf tid)).tmplbase + 256 * f.tmpl.toNat + 32 * f.mod.toNat) % 2 ^ 56
    if t.helper then .done s
    else match s.pageAcs tid 1 false true va e.grp.pc with
      | (.at (.loc l), s) => .done (s.wrN l 32 (wordsNat (t.vals 8 f.b)) (s.stamp tid))
      | (.at _, s) => .done s
      | (a, _) => a.fail) s

/-! ### Cancelling (R282) -/

/-- Cancels a channel: one delivery of each queued transfer's undelivered bytes, oldest first; the channel is Idle.  The number cancelled. -/
def State.cancelChan (s : State) (core ch : Nat) : Nat × State :=
  let xs := ((s.co core).chan ch).xs
  let s := s.modCo core fun c => c.modChan ch fun k => { k with xs := [], faulted := false }
  (xs.length, xs.foldl (fun s x => match x.obj with
    | some (l, va) => s.deliver l va x.cid (x.tmpl.e * (x.tmpl.count - x.done.length)) (chanLid core ch) x.edge
    | none => s) s)

/-- `BXCAN` (R282). -/
def execBxcan (f : Xf) (s : State) : Host.Outcome State Fault Refusal :=
  runWord (.bxcan f) (fun e tid s =>
    if (e.s0.th tid).helper then .done s
    else
      let (n, s) := s.cancelChan e.core f.ch.toNat
      .done (s.modTh tid fun x => x.write f.d [.ofNat 32 n])) s

/-- `PUB` (R285). -/
def execPub (f : Xf) (s : State) : Host.Outcome State Fault Refusal :=
  runWord (.pub f) (fun e tid s =>
    let t := e.s0.th tid
    .done (if t.helper then s
      else s.publish (s.cx (s.cidOf tid)).asid ((t.val f.a).toNat % 2 ^ 24) (s.stamp tid))) s

/-! ### Privilege of a register access (R15, R27) -/

/-- HS or M mode, or the management controller. -/
def whoAdmin : Who → Bool
  | .hart _ md => md == .hs || md == .m
  | .mc => true
  | _ => false

/-- HS or M mode. -/
def whoHsm : Who → Bool
  | .hart _ md => md == .hs || md == .m
  | _ => false

/-- VS or VU mode. -/
def whoGuest : Who → Bool
  | .hart _ md => md == .vs || md == .vu
  | _ => false

/-- A write that is not accepted: a guest's is dropped and logged (R27), another's is ignored. -/
def State.dropWrite (s : State) (who : Who) (addr : Nat) : State := if whoGuest who then s.ras 5 5 0 addr else s

/-! ### The aperture (R283, R284) -/

/-- The writer of an aperture is accepted: a host hart in HS or M mode, or an engine whose schedule belongs to the context running on
the core's partition. -/
def State.apAccepts (s : State) (who : Who) (core : Nat) : Bool :=
  match who with
  | .hart _ md => md == .hs || md == .m
  | .engine e => s.slot.any fun (_, x) => x.eng == e && (x.st == 4 || x.st == 5) && (s.cx x.cid).state == 4 &&
      inMask (s.cx x.cid).dies (coreDie core)
  | _ => false

/-- The edge id of an aperture's writer. -/
def State.apEdge (s : State) (who : Who) (core : Nat) : Nat :=
  match who with
  | .engine e => ((s.slot.find? fun (_, x) => x.eng == e && (x.st == 4 || x.st == 5)).map fun x => x.2.edge).getD 0
  | _ => s.rootEdge (coreDie core)

/-- `AP_STAT` records an outcome. -/
def State.apStat (s : State) (core ch err reason : Nat) : State :=
  s.modCo core fun c => c.modChan ch fun k => { k with lasterr := err, treason := reason }

/-- The template of an aperture's start, under checks 3 to 5 of R228: the cause when it cannot be read; none in marked sectors. -/
def State.engTmpl (s : State) (cid die num : Nat) : Except Nat (Option Tmpl) × State :=
  let va := s.tmplVa cid num
  if spliceVa ≤ va then (.error cAccess, s)
  else match s.xlat cid none die va with
    | (.error _, s) => (.error cPageFatal, s)
    | (.ok x, s) => if x.permits s .u 1 true false then let (t, s) := s.tmplIn (x.place s va); (.ok t, s) else (.error cAccess, s)

/-- The record of a translation that fails at an aperture's start (R258): agent 2, with the template's number. -/
def State.apRec (s : State) (cid num code va : Nat) (wr : Bool) : State :=
  if code = cPageFatal then (s.faultRec cid (engRec 2 code va wr num 0 0 0)).2 else s

/-- A start by the aperture (R283): the checks of R277 without the `.spad` bound. -/
def State.apStart (s : State) (who : Who) (core ch : Nat) (v : DWord) : State :=
  let k := (s.co core).chan ch
  let x := v.toNat
  let cid := x / 2 ^ 56
  let num := x % 64
  let store := x.testBit 8
  let nopost := x.testBit 9
  let c := s.cx cid
  let die := coreDie core
  let off := k.spad.toNat % 2 ^ 19
  let bar := k.bar.toNat % 2 ^ 56
  let fail (s : State) (err reason : Nat) : State := s.apStat core ch err reason
  let s := s.apStat core ch 0 0
  if c.state ≠ 4 ∨ !inMask c.dies die then fail s 1 0
  else if chanCap ≤ k.xs.length then fail s 2 0
  else match s.engTmpl cid die num with
    | (.error c, s) => fail (s.apRec cid num c (s.tmplVa cid num) false) 3 0
    | (.ok none, s) => fail (s.apRec cid num cEccMem (s.tmplVa cid num) false) 3 0
    | (.ok (some tm), s) =>
      let (obj, s) : Except Nat (Option (Nat × Nat)) × State :=
        if bar = 0 then (.ok none, s)
        else if bar % 32 ≠ 0 then (.error cMisalign, s)
        else match s.engAcs cid die bar true true with
          | (.ok _ (.loc l), s) | (.ok _ (.dev l), s) | (.wait (.loc l) _, s) | (.wait (.dev l) _, s) => (.ok (some (l, bar)), s)
          | (.fail c, s) => (.error c, s)
          | (_, s) => (.error cAccess, s)
      match obj with
      | .error c => fail (s.apRec cid num c bar true) 5 0
      | .ok obj =>
        match tm.reason store with
        | some r => fail s 3 r
        | none =>
          if !tm.spadOk off ∨ 393216 < off + tm.foot then fail s 3 7
          else match s.postCheck tm obj nopost with
            | some (code, _) => if code = cTemplate then fail s 3 8 else fail s 5 0
            | none =>
              let w (d : DWord) (i : Nat) : Int := sextNat 32 (d.toNat / 2 ^ (32 * i))
              s.startXfer core ch { tid := none, cid, num, pc := 0, tmpl := tm, store
                                    coord := [w k.c01 0, w k.c01 1, w k.c23 0, w k.c23 1, w k.c4 0], base := spadLoc core 0, c := off, obj
                                    edge := s.apEdge who core, seq := 0, done := [] } nopost

/-- The address of `AP_GO`. -/
def apGoAddr (core ch : Nat) : Nat := hbmTop + 0x2000000 + 0x1000 * core + 0x40 * ch + 0x28

/-- APERTURE_START (R283). -/
def execApertureStart (who : Who) (core ch : Nat) (v : DWord) (s : State) : Host.Outcome State Fault Refusal :=
  .next (if s.apAccepts who core then s.apStart who core ch v else s.dropWrite who (apGoAddr core ch))

/-- APERTURE_CANCEL (R283). -/
def execApertureCancel (who : Who) (core ch : Nat) (_ : DWord) (s : State) : Host.Outcome State Fault Refusal :=
  .next (if s.apAccepts who core then ((s.apStat core ch 0 0).cancelChan core ch).2
    else s.dropWrite who (apGoAddr core ch))

/-- The row that a write becomes, as the next step, with the access in hand. -/
def State.asRow (s : State) (who : Who) (idx : Nat) (val : DWord) (i : Instr) : State :=
  { s with acc := { who, idx, val }, agenda := Move.event i :: s.agenda }

/-- A write of an aperture register (R283). -/
def State.apWrite (s : State) (who : Who) (core ch o v : Nat) : State :=
  let w : DWord := .ofNat 64 v
  let stage (f : Chan → Chan) : State := s.modCo core fun c => c.modChan ch f
  if !s.apAccepts who core then s.dropWrite who (apGoAddr core ch - 0x28 + o)
  else if o = 0x00 then stage fun k => { k with c01 := w }
  else if o = 0x08 then stage fun k => { k with c23 := w }
  else if o = 0x10 then stage fun k => { k with c4 := .ofNat 64 (v % 2 ^ 32) }
  else if o = 0x18 then stage fun k => { k with bar := .ofNat 64 (v % 2 ^ 56) }
  else if o = 0x20 then stage fun k => { k with spad := .ofNat 64 (v % 2 ^ 19) }
  else if o = 0x28 then s.asRow who core w (if v.testBit 10 then .apertureCancel who core ch w else .apertureStart who core ch w)
  else s

/-- The aperture register at a device address: core, channel, offset. -/
def apertureOf (pa : Nat) : Option (Nat × Nat × Nat) :=
  let o := pa - (hbmTop + 0x2000000)
  if hbmTop + 0x2000000 ≤ pa ∧ o < 0x140000 ∧ o % 0x1000 < 0x100 then some (o / 0x1000, o % 0x1000 / 0x40, o % 0x40) else none

/-- A write of a Truss engine at a device address (R283): a register of an aperture, in 8 bytes (R15), or as another agent's. -/
def State.engDevWrite (s : State) (eng pa w x : Nat) : State :=
  match apertureOf pa with
  | some (core, ch, o) => if w = 8 ∧ o % 8 = 0 then s.apWrite (.engine eng) core ch o x else s
  | none => s.devWrite pa w x

end Sys2Proof.Machine
end

