-- ==== Sys2Proof/Machine/Pages.lean ====
section
/-!
DEFINITION. Page commands (R261 to R264), poison marks (R256, R416), and the pages that a context's tables map.
-/
namespace Sys2Proof.Machine

/-! ### The page of a command (R262) -/

/-- What a command finds at its address: the page's first address, its size, its entry, and its record (state 1 and no handle where it has
none). -/
structure Pg where
  base : Nat
  pte : DWord
  h : Held
  isRec : Bool
  deriving DecidableEq, Repr

/-- The page that a context's address lies in: from its record, or else by a walk. -/
def State.findPage (s : State) (cid va : Nat) : Except TErr Pg :=
  let c := s.cx cid
  match s.heldOf c.asid va with
  | some (base, h) => .ok { base, pte := h.pte, h, isRec := true }
  | none =>
    match s.walk c.root va with
    | .error e => .error e
    | .ok pte => .ok { base := va / psBytes (ptePs pte) * psBytes (ptePs pte), pte, h := { st := 1, ps := ptePs pte, pte }, isRec := false }

/-- The marked sectors of a page. -/
def State.marks (s : State) (pte : DWord) : List Nat :=
  if pteKind pte = 1 then s.poison.filter (inFrame (pteFrame pte) (psBytes (ptePs pte))) else []

/-- A record as it stands after a command (R262): one with no state but Mapped, no tag and no marks is removed; all translations of the
page leave every TLB (R263). -/
def State.settle (s : State) (asid base : Nat) (h : Held) : State :=
  (s.setHeld asid base (if h.st = 1 ∧ h.handle = 0 ∧ (s.marks h.pte).isEmpty then {} else h)).tlbDropPage asid base

/-- The entries with `V` = 1 that map a page: the one at which a walk ends, though it be malformed, and the run of a 2 MiB page. -/
def State.pageEntries (s : State) (root : Nat) (p : Pg) : List Nat :=
  let (a, l3) := s.walkEnd root p.base
  (if l3 && p.h.ps == 1 then (upto 32).map fun i => a + 8 * i else [a]).filter fun a => pteV (.ofNat 64 (s.rd a 8))

/-- The table entries of a page are changed. -/
def State.putEntries (s : State) (f : DWord → DWord) : List Nat → State
  | [] => s
  | a :: as => (s.wrN a 8 (f (.ofNat 64 (s.rd a 8))).toNat).putEntries f as

/-- The settings of the trace headers in a page that leaves are kept (R265). -/
def State.holdTrace (s : State) (asid base n : Nat) : State :=
  (s.ctx.filter fun x => x.2.asid == asid && x.2.tracebase != 0 && decide (base ≤ x.2.tracebase) && decide (x.2.tracebase < base + n)).foldl
    (fun t x => t.modCx x.1 fun c => { c with traceWord := (s.traceCtl x.1).getD c.traceWord }) s

/-- What waited for a page goes on, in the order of arrival (R264); the core of a slot that waited tries that slot (log 110). -/
def State.goOn (s : State) (ms : List Move) : State :=
  ms.foldl (fun s m => match m with | .core c => s.modCo c fun x => { x with last := none } | _ => s) { s with agenda := ms ++ s.agenda }

/-- A page becomes Unmapped (R262): `V` = 0 in its entry, its record removed, its line locks released (R248); what waited for it is tried again. -/
def State.unmapPage (s : State) (cid : Nat) (p : Pg) : State :=
  let c := s.cx cid
  let s := s.holdTrace c.asid p.base (psBytes p.h.ps)
  let s := s.putEntries (fun e => e &&& ~~~(1#64)) (s.pageEntries c.root p)
  let s := ((s.setHeld c.asid p.base {}).tlbDropPage c.asid p.base).goOn p.h.waits
  match ({ pte := p.pte, held := {}, page := p.base } : Xlat).place s p.base with
  | .loc f => { s with locks := s.locks.filter fun l =>
      !(l.cid == cid && decide (f ≤ 128 * l.line) && decide (128 * l.line < f + psBytes (ptePs p.pte))) }
  | _ => s

/-- Accesses that a page translated are not performed yet (R263): fabric operations of threads, CPs and schedules at its addresses, those of a schedule
that are not sent yet, those of threads and engines whose context has left them, and deliveries of transfers to an object in it. -/
def State.pageInUse (s : State) (asid base n : Nat) : Bool :=
  let mine (cid va : Nat) : Bool := (s.cx cid).asid == asid && decide (base ≤ va) && decide (va < base + n)
  (s.thr.any fun x => x.2.pend.any fun p => match p.src with
    | .fabric _ | .mcast _ => mine (s.cidOf x.1) p.va || (p.fva != 0 && mine (s.cidOf x.1) p.fva)
    | _ => false) ||
  (s.fab.out.any fun r => match r.owner with
    | .cp q => mine (s.qv q).cid r.va
    | .slot k => mine (s.sl k).cid r.va
    | .ctx cid => mine cid r.va || (r.fva != 0 && mine cid r.fva)
    | _ => false) ||
  (s.slot.any fun x => x.2.todo.any fun t => t.kind != 4 && t.eth.isNone && mine x.2.cid t.va) ||
  s.core.any fun c => c.2.chans.any fun k => !k.faulted && k.xs.any fun x => match x.obj with
    | some (l, va) => decide (l < 2 ^ 52) && mine x.cid va
    | none => false

/-- The command in progress of a context is complete (R263, R264): its page has left Migrating, and no access through its former state is left. -/
def State.cmdOver (s : State) (c : Ctx) : Bool :=
  !s.migrating c.asid c.pgpage.1 && !s.pageInUse c.asid c.pgpage.1 c.pgpage.2

/-- The commands in progress that are complete end. -/
def State.endCmds (s : State) : State :=
  (s.ctx.filter fun x => x.2.pbusy && s.cmdOver x.2).foldl (fun s x => s.modCx x.1 fun c => { c with pbusy := false }) s

/-! ### Running a command -/

/-- Statuses of `PG_CMD`. -/
def pOk : Nat := 0
/-- BUSY. -/
def pBusySt : Nat := 1
/-- BADSTATE. -/
def pBadState : Nat := 2
/-- NOMAP. -/
def pNoMap : Nat := 3
/-- FULL. -/
def pFull : Nat := 4
/-- BADARG. -/
def pBadArg : Nat := 5
/-- PRIV. -/
def pPriv : Nat := 6
/-- MALFORMED. -/
def pMalformed : Nat := 7

/-- A command ends with a status. -/
def State.pgEnd (s : State) (cid st : Nat) : State := s.modCx cid fun c => { c with pstat := st }

/-- Where a write of `PG_CMD` lies. -/
def pgCmdAddr (cid : Nat) : Nat := hbmTop + 0x30000 + 0x40 * cid

/-- A write of `POP` by the access in hand: dropped, refused while a command is in progress, or run. -/
def State.pgWrite (s : State) (run : Nat → Who → State → State) : State :=
  let cid := s.acc.idx
  if !whoAdmin s.acc.who then s.dropWrite s.acc.who (pgCmdAddr cid)
  else if (s.cx cid).pbusy then s.pgEnd cid pBusySt
  else run cid s.acc.who s

/-- A command on a page (R262): the statuses decided before it, then the command, which gives its status and the state it leaves. -/
def State.pgRun (s : State) (cid : Nat) (needsRec : State → Pg → Bool) (cmd : State → Nat → Pg → Nat × State) : State :=
  let c := s.cx cid
  let va := c.pgva.toNat / 2 ^ 16 * 2 ^ 16 % 2 ^ 56
  match s.findPage cid va with
  | .error .malformed => s.pgEnd cid pMalformed
  | .error .absent => s.pgEnd cid pNoMap
  | .ok p =>
    if p.base ≠ va then s.pgEnd cid pBadArg
    else if needsRec s p && !p.isRec && !s.hstRoom then s.pgEnd cid pFull
    else let (st, s) := cmd s c.asid p; s.pgEnd cid st

/-- A command that changes the page, which is in progress until it is complete (R263). -/
def State.pgChange (s : State) (cid : Nat) (needsRec : State → Pg → Bool) (cmd : State → Nat → Pg → Nat × State) : State :=
  s.pgRun cid needsRec fun s asid p =>
    let (st, s) := cmd s asid p
    (st, if st = pOk then (s.modCx cid fun c => { c with pbusy := true, pgpage := (p.base, psBytes p.h.ps) }).endCmds else s)

/-- No new record. -/
def noRec (_ : State) (_ : Pg) : Bool := false
/-- A new record for a Mapped page. -/
def newRec (_ : State) (p : Pg) : Bool := p.h.st == 1

/-- `PG_PA` as a frame. -/
def State.pgFrame (s : State) (cid : Nat) : Nat := bitsOf (s.cx cid).pgpa.toNat 16 36 * 2 ^ 16

/-- A frame of a page's size: aligned, and of memory. -/
def frameOk (f ps : Nat) : Bool := f % psBytes ps == 0 && decide (f + psBytes ps ≤ hbmTop)

/-- PIN. -/
def execPgPin (s : State) : Host.Outcome State Fault Refusal :=
  .next (s.pgWrite fun cid _ s => s.pgChange cid newRec fun s asid p =>
    if p.h.st = 1 then (pOk, s.settle asid p.base { p.h with st := 2 })
    else if p.h.st = 2 then (pOk, s) else (pBadState, s))

/-- The header of a handler image (R412): its magic, `ENTRY`, `ILEN` and `SIGOFF`. -/
def State.imageHdr (s : State) (cid himg : Nat) : Option (Nat × Nat × Nat × Nat) :=
  match (s.hwRdWords cid himg 4).1 with
  | some w => some (w.getD 0 0 % 2 ^ 32, w.getD 1 0, w.getD 2 0, w.getD 3 0)
  | none => none

/-- The lengths of a context's trace buffer and handler image as their headers give them now: those that BIND reads (R31). -/
def State.bindLens (s : State) (cid : Nat) (c : Ctx) : Ctx :=
  { c with
    traceLen := match s.traceCtl cid with | some w => 64 + 32 * 2 ^ traceSz w | none => 64
    imgLen := match s.imageHdr cid c.himg with | some (_, _, _, off) => off + 3309 | none => 64 }

/-- The ranges that lie in Pinned pages while a context is bound (R31, R265): its save area, its handler image and its trace buffer, as long as BIND
found them. -/
def Ctx.bindRanges (c : Ctx) : List (Nat × Nat) :=
  (c.savebase, c.savelen) :: (c.himg, c.imgLen) :: if c.tracebase = 0 then [] else [(c.tracebase, c.traceLen)]

/-- A page holds part of such a range of a bound context, which it leaves only by FORCEUNMAP or a reset (R265). -/
def State.boundPage (s : State) (asid base n : Nat) : Bool :=
  s.ctx.any fun x => decide (2 ≤ x.2.state) && x.2.asid == asid &&
    x.2.bindRanges.any fun r => decide (base < r.1 + r.2) && decide (r.1 < base + n)

/-- UNPIN; of a page that a bound context keeps, BUSY, as its UNMAP and MIGRATE are (R265, log 100). -/
def execPgUnpin (s : State) : Host.Outcome State Fault Refusal :=
  .next (s.pgWrite fun cid _ s => s.pgChange cid noRec fun s asid p =>
    if p.h.st ≠ 2 then (pBadState, s)
    else if s.boundPage asid p.base (psBytes p.h.ps) then (pBusySt, s)
    else (pOk, s.settle asid p.base { p.h with st := 1 }))

/-- SHADOW. -/
def execPgShadow (s : State) : Host.Outcome State Fault Refusal :=
  .next (s.pgWrite fun cid _ s => s.pgChange cid newRec fun s asid p =>
    let f := s.pgFrame cid
    if p.h.st ≠ 1 then (pBadState, s)
    else if !frameOk f p.h.ps then (pBadArg, s)
    else (pOk, s.settle asid p.base { p.h with st := 4, shadow := f, written := [] }))

/-- UNSHADOW. -/
def execPgUnshadow (s : State) : Host.Outcome State Fault Refusal :=
  .next (s.pgWrite fun cid _ s => s.pgChange cid noRec fun s asid p =>
    if p.h.st ≠ 4 then (pBadState, s)
    else if p.h.written.isEmpty || (s.cx cid).pgarg.getLsbD 24 then
      (pOk, s.settle asid p.base { p.h with st := 1, shadow := 0, written := [] })
    else (pBusySt, s))

/-- MIGRATE (R264): the page is Migrating, and the command in progress until the frame switch; the frame is not checked (R262). -/
def execPgMigrate (s : State) : Host.Outcome State Fault Refusal :=
  .next (s.pgWrite fun cid _ s => s.pgChange cid newRec fun s asid p =>
    if p.h.st = 2 ∨ p.h.st = 4 ∨ p.h.st = 6 then (pBusySt, s)
    else if p.h.st = 3 then (pBadState, s)
    else (pOk, s.settle asid p.base { p.h with st := 3, newFrame := s.pgFrame cid, prev := p.h.st }))

/-- UNMAP. -/
def execPgUnmap (s : State) : Host.Outcome State Fault Refusal :=
  .next (s.pgWrite fun cid _ s => s.pgChange cid noRec fun s _ p =>
    if p.h.st = 2 ∨ p.h.st = 3 ∨ p.h.st = 4 then (pBusySt, s) else (pOk, s.unmapPage cid p))

/-- TAG. -/
def execPgTag (s : State) : Host.Outcome State Fault Refusal :=
  .next (s.pgWrite fun cid _ s =>
    let handle := (s.cx cid).pgarg.toNat % 2 ^ 24
    s.pgChange cid (fun _ _ => handle != 0) fun s asid p => (pOk, s.settle asid p.base { p.h with handle }))

/-- Sectors are zeroed and unmarked. -/
def State.clearSectors (s : State) : List Nat → State
  | [] => s
  | k :: ks => { s.wrN (32 * k) 32 0 with poison := s.poison.erase k }.clearSectors ks

/-- Poisoned pages without a marked sector are Mapped again (R256): those of an unmarked frame, in every address space; a record of a Mapped page that
only its marks kept is removed (R262). -/
def State.unpoisoned (s : State) : State :=
  (s.held.filter fun x => (x.2.st == 5 || x.2.st == 1) && (s.marks x.2.pte).isEmpty).foldl (fun s x =>
    s.settle (x.1 / 2 ^ 40) (x.1 % 2 ^ 40 * 2 ^ 16) { x.2 with st := 1 }) s

/-- UNPOISON. -/
def execPgUnpoison (s : State) : Host.Outcome State Fault Refusal :=
  .next (s.pgWrite fun cid _ s => s.pgChange cid noRec fun s asid p =>
    let ks := s.marks p.pte
    if ks.isEmpty then (pBadState, s)
    else
      let s := (s.clearSectors ks).unpoisoned
      (pOk, if p.isRec ∧ p.h.st ≠ 5 then s.settle asid p.base p.h else s))

/-- FORCEUNMAP: M mode or the management controller only. -/
def execPgForceunmap (s : State) : Host.Outcome State Fault Refusal :=
  .next (s.pgWrite fun cid who s => s.pgChange cid noRec fun s _ p =>
    match who with
    | .hart _ .m | .mc => (pOk, s.unmapPage cid p)
    | _ => (pPriv, s))

/-- The frame that QUERY returns. -/
def pteHome (e : DWord) : Nat := match pteKind e with | 1 => pteFrame e | 2 => pteRframe e | _ => 0

/-- QUERY. -/
def execPgQuery (s : State) : Host.Outcome State Fault Refusal :=
  .next (s.pgWrite fun cid _ s =>
    let va := (s.cx cid).pgva.toNat / 2 ^ 16 * 2 ^ 16 % 2 ^ 56
    let give (s : State) (st frame handle : Nat) : State :=
      (s.modCx cid fun c => { c with pgpa := .ofNat 64 frame, pgarg := .ofNat 64 (st * 2 ^ 32 + handle) }).pgEnd cid pOk
    match s.findPage cid va with
    | .error .absent => give s 0 0 0
    | _ => s.pgRun cid noRec fun s _ p => (pOk, give s p.h.st (pteHome p.pte) p.h.handle))

/-! ### RESOLVE (R261) -/

/-- The threads of a group that still wait for a fault (R261). -/
def State.faultWaits (s : State) (f : FStall) : List Nat :=
  f.grp.members.filter fun t => s.resident t && (s.th t).st == .stalled && (s.th t).token == some f.token

/-- A replayable fault ends, a memory slot that ends in PAGE_FATAL being counted (R402): its group replays its slot, once more than before (R402), or each member whose access is absent takes PAGE_FATAL. -/
def State.endFault (s : State) (f : FStall) (fatal : Bool) : State :=
  let s := { s with faults := s.faults.filter fun x => !(x.token == f.token && x.cid == f.cid) }
  let ms := s.faultWaits f
  if ms.isEmpty then s
  else if fatal then
    let s := if f.counts then (s.countOn f.core ms.head? false).2 else s
    ms.foldl (fun s t => match f.absent.find? (·.1 == t) with
      | some (_, va) => s.takeTrap t cPageFatal (.ofNat 64 va) f.grp.pc
      | none => s.modTh t fun x => { x with st := .ready, token := none }) s
  else
    (ms.foldl (fun s t => s.modTh t fun x => { x with token := none }) s).modCo f.core fun c =>
      { c with replay := c.replay ++ [{ f.grp with members := ms, replays := f.grp.replays + 1 }] }

/-- Records of replayable faults that found the queue full are written once a slot frees (R259); one whose queue's pages fail is dropped, and its fault
becomes PAGE_FATAL. -/
def State.flushFaults (s : State) : State :=
  s.faults.foldl (fun s f =>
    if f.written then s
    else match s.faultRec f.cid f.rec' with
      | (.written, s) => { s with faults := s.faults.map fun x => if x.token = f.token ∧ x.cid = f.cid then { x with written := true } else x }
      | (.lost, s) => s.endFault f true
      | (.full, s) => s) s

/-- The fault of a token ends. -/
def State.resolve (s : State) (cid token : Nat) (fatal : Bool) : State :=
  match s.faults.find? fun f => f.token == token && f.cid == cid with
  | none => s
  | some f => s.endFault f fatal

/-- RESOLVE. -/
def execPgResolve (s : State) : Host.Outcome State Fault Refusal :=
  .next (s.pgWrite fun cid _ s =>
    let a := (s.cx cid).pgarg
    (s.resolve cid (a.toNat / 2 ^ 32) (a.getLsbD 25)).flushFaults.pgEnd cid pOk)

/-! ### The frame switch (R264) -/

/-- The listed cells of a range of memory, moved to another place; the range there holds nothing else.  Device space takes none. -/
def Memory.copyRange (m : Memory) (src dst n : Nat) : Memory :=
  let here := m.filter fun c => decide (src ≤ c.1) && decide (c.1 < src + n) && decide (dst + (c.1 - src) < hbmTop)
  let rest : Memory := m.filter fun c => !(decide (dst ≤ c.1) && decide (c.1 < dst + n))
  here.foldl (fun m c => Tbl.set Memory.blank m (dst + (c.1 - src)) c.2) rest

/-- Copies a range of memory. -/
def State.copyRange (s : State) (src dst n : Nat) : State :=
  if s.inHst dst n then s.ras 5 5 0 dst
  else { s with
    mem := Memory.copyRange s.mem src dst n
    watch := hitWatches s.watch dst n 0
    hres := dropRes s.hres dst n }

/-- An entry with another frame: of a local page, or at the target of a fabric page; a multicast page has none. -/
def withFrame (e : DWord) (f : Nat) : DWord :=
  match pteKind e with
  | 1 => .ofNat 64 (e.toNat % 2 ^ 16 + f + e.toNat / 2 ^ 52 * 2 ^ 52)
  | 2 => .ofNat 64 (e.toNat % 2 ^ 28 + f / 2 ^ 16 * 2 ^ 28)
  | _ => e

/-- A wait for an object that has moved. -/
def Wait.moved (f : Nat → Nat) : Wait → Wait
  | .barrier l n => .barrier (f l) n
  | w => w

/-- What the hardware holds by location follows a frame that has moved (R264): waiters and transfers of barrier objects, armed watches, and operations
of schedules that wait to be performed here. -/
def State.moveFrame (s : State) (old new n : Nat) : State :=
  let f (l : Nat) : Nat := if old ≤ l ∧ l < old + n then l - old + new else l
  { s with
    thr := s.thr.map fun x => (x.1, { x.2 with wait := x.2.wait.moved f })
    core := s.core.map fun x => (x.1, { x.2 with chans := x.2.chans.map fun k => { k with xs := k.xs.map fun y =>
      { y with obj := y.obj.map fun o => (f o.1, o.2) } } })
    watch := s.watch.map fun x => (x.1, { x.2 with loc := f x.2.loc })
    slot := s.slot.map fun x => (x.1, { x.2 with todo := x.2.todo.map fun t =>
      if t.kind ≠ 0 ∧ t.eth.isNone ∧ t.mc.isNone ∧ t.gdn = s.gdn then { t with pa := f t.pa } else t }) }

/-- The frame of this device that a page names. -/
def State.ownFrame (s : State) (h : Held) : Option Nat :=
  match pteKind h.pte with
  | 1 => some (pteFrame h.pte)
  | 2 => if pteGdn h.pte = s.gdn then some (pteRframe h.pte) else none
  | _ => none

/-- The frame of a page is copied with its marks, and what is held by location follows it (R264).  A frame at another device is not copied (log 101). -/
def State.copyFrame (s : State) (h : Held) : State :=
  let n := psBytes h.ps
  match s.ownFrame h with
  | some old =>
    let moved := (s.poison.filter (inFrame old n)).map fun k => k - old / 32 + h.newFrame / 32
    let s := s.copyRange old h.newFrame n
    let s := { s with poison := s.poison ++ moved.filter fun k => !s.poison.contains k }
    s.moveFrame old h.newFrame n
  | none => s

/-- What waited for the frame switch of a page, in its order of arrival: a write whose own entry names the old frame proceeds at the new one (R264). -/
def State.lateMoves (s : State) (h : Held) : List Move :=
  match s.ownFrame h with
  | some old => if h.waits.isEmpty then [] else .redirect (some (old, h.newFrame, psBytes h.ps)) :: h.waits ++ [.redirect none]
  | none => h.waits

/-- MIGRATE_SWITCH (R264): the frame is copied with its marks, the translation switches, the command ends, and the writes that wait proceed in the
order of their arrival. -/
def execMigrateSwitch (asid page : Nat) (s : State) : Host.Outcome State Fault Refusal :=
  .next (match s.heldOf asid page with
    | some (base, h) =>
      if h.st ≠ 3 then s
      else
        let s := s.copyFrame h
        let p : Pg := { base, pte := h.pte, h, isRec := true }
        let cs := s.ctx.filter fun (_, c) => c.asid == asid && (c.v || c.pbusy)
        let s := cs.foldl (fun s (_, c) =>
          s.putEntries (fun e => if pteV e ∧ pteKind e = pteKind h.pte ∧ pteHome e = pteHome h.pte then withFrame e h.newFrame else e)
            (s.pageEntries c.root p)) s
        let s := s.settle asid base { h with st := h.prev, pte := withFrame h.pte h.newFrame, newFrame := 0, prev := 0, waits := [] }
        s.endCmds.goOn (s.lateMoves h)
    | none => s)

/-! ### The pages that tables map, and poison (R256) -/

/-- The table pages reached from a level-1 table: address and bytes. -/
def State.tables (s : State) (root : Nat) : List (Nat × Nat) :=
  (root * 2 ^ 16, 2 ^ 17) :: (s.validEntries (root * 2 ^ 16) 16384).flatMap fun (_, e1) =>
    if pteKind e1 ≠ 0 then []
    else (pteFrame e1, 2 ^ 16) :: (s.validEntries (pteFrame e1) 8192).filterMap fun (_, e2) =>
      if pteKind e2 = 0 then some (pteFrame e2, 2 ^ 16) else none

end Sys2Proof.Machine
end

