-- ==== Sys2Proof/Machine/Power.lean ====
section
/-!
DEFINITION. Tokens, buckets, the governor, ballast, intents and clock locks (R323 to R344, R418).
-/
namespace Sys2Proof.Machine

/-! ### Buckets (R327 to R329); levels and prices in 1/256 token -/

/-- Capacity of a core bucket. -/
def coreCap : Int := 4096 * 256
/-- Capacity of a die bucket. -/
def dieCap : Int := 65536 * 256
/-- Capacity of the package bucket. -/
def pkgCap : Int := 262144 * 256

/-- The refill cap of a core, tokens per tick (R329). -/
def State.refillCap (s : State) : Nat := 4096 * (8 - s.pow.tstep) / 8

/-- A supplier's shares (R327): every shortfall when it holds enough, else in proportion, in whole units. -/
def shares (hold : Int) (shorts : List Int) : List Int :=
  let total := shorts.foldl (· + ·) 0
  if total ≤ hold then shorts else if hold ≤ 0 then shorts.map fun _ => 0 else shorts.map fun x => hold * x / total

/-- The sum of a list. -/
def sumInt (l : List Int) : Int := l.foldl (· + ·) 0

/-- The cores of a die. -/
def dieCores (d : Nat) : List Nat := (upto 80).map fun i => 80 * d + i

/-- A core draws tokens at a tick: not out of service, and its core cluster not waking (R332). -/
def State.drawsTokens (s : State) (c : Nat) : Bool := !(s.co c).retired && !(s.cc (coreCcl c)).waking

/-- What a core lacks at a tick. -/
def State.coreShort (s : State) (c : Nat) : Int :=
  if s.drawsTokens c then max 0 (min (coreCap - (s.co c).bucket) ((s.refillCap * 256 : Nat) : Int)) else 0

/-- The core refills of a die, and whether every one was met. -/
def State.refillCores (s : State) (d : Nat) : Bool × State :=
  let cs := dieCores d
  let shorts := cs.map s.coreShort
  let gs := shares (s.di d).bucket shorts
  let s1 := (cs.zip gs).foldl (fun s x => s.modCo x.1 fun c => { c with bucket := c.bucket + x.2, testing := false }) s
  (gs == shorts, s1.modDi d fun x => { x with bucket := x.bucket - sumInt gs })

/-- The die refills from the package bucket, and whether every one was met. -/
def State.refillDies (s : State) : Bool × State :=
  let ds := [0, 1, 2, 3]
  let shorts := ds.map fun d => dieCap - (s.di d).bucket
  let gs := shares s.pow.bucket shorts
  let s1 := (ds.zip gs).foldl (fun s x => s.modDi x.1 fun y => { y with bucket := y.bucket + x.2 }) s
  (gs == shorts, { s1 with pow := { s1.pow with bucket := s1.pow.bucket - sumInt gs } })

/-- Tokens that no source took and that lie beyond the capacity are discarded (R334). -/
def Pow.spill (p : Pow) : Pow :=
  let x := max 0 (p.offered - pkgCap)
  { p with bucket := p.bucket - x, lost := p.lost + x.toNat }

/-- The refills of the four dies' cores; false when one was not met in full. -/
def State.refillAll (s : State) : Bool × State :=
  let (a, s) := s.refillCores 0
  let (b, s) := s.refillCores 1
  let (c, s) := s.refillCores 2
  let (d, s) := s.refillCores 3
  (a && b && c && d, s)

/-- BUCKET_TICK (R327, R334, R335): the refills, and what is left is offered to ballast.  When a core refill was not met and the package's tokens did not
reach for the dies, nothing is offered. -/
def State.bucketTick (s : State) : State :=
  let s := { s with pow := s.pow.spill }
  let (full, s) := s.refillDies
  let (met, s) := s.refillAll
  let p := { s.pow with offered := max 0 s.pow.bucket, scrubbed := 0 }
  { s with pow := if met || full then p else { p with offered := 0 } }

/-- BUCKET_TICK. -/
def execBucketTick (s : State) : Host.Outcome State Fault Refusal := .next s.bucketTick

/-! ### Ballast (R334, R335) -/

/-- What one line of a prefetch hint draws. -/
def State.hintPrice (s : State) : Nat := (s.priceOf (16 * 0xEA + 8)).1
/-- What one scrubbed line draws. -/
def State.scrubPrice (s : State) : Nat := (s.priceOf (16 * 0xEA + 10)).1
/-- What one self-test step draws: 2.5 W for one tick (log 31). -/
def testPrice : Nat := 160 * 256

/-- What the queued hints need. -/
def State.hintNeed (s : State) : Nat :=
  s.hintPrice * (([0, 1, 2, 3].map fun d => ((s.di d).hints.map fun h => h.2.2).sum).sum)

/-- What scrub may still draw of the tick's offer: `SCRUBMAX` for 64 ns, in 1/256 token. -/
def State.scrubLeft (s : State) : Nat := s.pow.scrubmax * 64 * 256 - s.pow.scrubbed

/-- A core runs self-test: its core cluster awake, itself in service and without a block. -/
def State.idleCore (s : State) (c : Nat) : Bool :=
  let cl := s.cc (coreCcl c)
  cl.awake && !cl.waking && !(s.co c).retired && !(s.blk.any fun x => x.2.live && x.2.core == c)

/-- A draw of ballast. -/
def State.ballastDraw (s : State) (x : Nat) : State :=
  { s with pow := { s.pow with
      bucket := s.pow.bucket - x, offered := s.pow.offered - x, drawn := s.pow.drawn + x } }

/-- A range of lines less its first. -/
def dropLine (q : List (Nat × Nat × Nat)) : List (Nat × Nat × Nat) :=
  match q with
  | [] => []
  | (cid, line, n) :: rest => if n ≤ 1 then rest else (cid, line + 1, n - 1) :: rest

/-- The hint's line is one that it fetches: present, readable and not Vacated. -/
def State.hintLine (s : State) (die cid line : Nat) : Bool × State :=
  match s.xlat cid none die (line * 128) with
  | (.ok x, s) =>
    if pteR x.pte && x.held.st != 6 && pteKind x.pte == 1 then (true, s.fillAt (x.place s (line * 128))) else (false, s)
  | (.error _, s) => (false, s)

/-- BALLAST_HINT_FETCH (R334, R344): one line of the oldest hint of a die; a line that cannot be read is skipped. -/
def execBallastHintFetch (die : Nat) (s : State) : Host.Outcome State Fault Refusal :=
  .next (match (s.di die).hints with
    | (cid, line, _) :: _ =>
      if s.pow.offered < (s.hintPrice : Nat) then s
      else
        let (ok, s) := s.hintLine die cid line
        let s := s.modDi die fun d => { d with hints := dropLine d.hints }
        if ok then s.ballastDraw s.hintPrice else s
    | [] => s)

/-- A line is scrubbed: the correctable errors that its sectors hold are corrected in place and logged (R335, R417). -/
def State.scrub (s : State) (line : Nat) : State :=
  (s.soft.filter fun k => k / 4 == line).foldl (fun s k => { s with soft := s.soft.erase k }.ras 1 3 0 (32 * k)) s

/-- The line that the oldest targeted scrub of a die comes to: none where no page of this package holds it. -/
def State.scrubLine (s : State) (die cid line : Nat) : Option Nat :=
  match (s.xlat cid none die (line * 128 % 2 ^ 56)).1 with
  | .ok x => match x.place s (line * 128 % 2 ^ 56) with | .loc l => some (l / 128) | _ => none
  | .error _ => none

/-- Targeted scrubs wait on a die; patrol scrub comes after those of every die (R334). -/
def State.scrubsWait (s : State) : Bool := [0, 1, 2, 3].any fun d => !(s.di d).scrubs.isEmpty

/-- A scrub can begin a line on a die: one is due there, what the hints leave covers its draw, and `SCRUBMAX` does. -/
def State.scrubDue (s : State) (die : Nat) : Bool :=
  (!(s.di die).scrubs.isEmpty || !s.scrubsWait) && !decide (s.pow.offered - (s.hintNeed : Nat) < (s.scrubPrice : Nat)) &&
    !decide (s.scrubLeft < s.scrubPrice)

/-- BALLAST_SCRUB_LINE (R334): one line by targeted, then by patrol scrub, from what the hints leave. -/
def execBallastScrubLine (die : Nat) (s : State) : Host.Outcome State Fault Refusal :=
  .next (if !s.scrubDue die then s
    else
      let s := s.ballastDraw s.scrubPrice
      let s := { s with pow := { s.pow with scrubbed := s.pow.scrubbed + s.scrubPrice } }
      match (s.di die).scrubs with
      | [] => { s with pow := { s.pow with scrubAt := (s.pow.scrubAt + 1) % (hbmTop / 128) } }.scrub s.pow.scrubAt
      | (cid, line, _) :: _ =>
        let at' := s.scrubLine die cid line
        let s := s.modDi die fun d => { d with scrubs := dropLine d.scrubs }
        match at' with | some l => s.scrub l | none => s)

/-- SELF_TEST_STEP (R334, R335, R417): one step of an idle awake core, from what hints and scrub leave; a failure is logged and takes the
core out of service. -/
def execSelfTestStep (core : Nat) (ok : Bool) (s : State) : Host.Outcome State Fault Refusal :=
  .next (if !s.idleCore core || (s.co core).testing ||
        decide (s.pow.offered - (s.hintNeed + s.scrubLeft : Nat) < (testPrice : Nat)) then s
    else
      let s := (s.ballastDraw testPrice).modCo core fun c => { c with testing := true }
      if ok then s else (s.modCo core fun c => { c with retired := true, testing := false }).ras 6 0 core 0)

/-- The step of `BALLAST` (R344). -/
def stepBallast (f : V3) (e : Env) (tid : Nat) (s : State) : Lane :=
  let t := e.s0.th tid
  let die := coreDie e.core
  let cid := s.cidOf tid
  let give (s : State) (x : Nat) : Lane := .done (s.modTh tid fun th => th.write f.d [.ofNat 32 x])
  if f.mod = 1 then
    let n := ((s.di die).hints.filter fun h => h.1 == cid).length
    give (s.modDi die fun d => { d with hints := d.hints.filter fun h => h.1 != cid }) n
  else
    let b := (t.val f.b).toNat
    if b = 0 then give s 0
    else
      let a := (t.val64 f.a).toNat % 2 ^ 56
      let r := (cid, a / 128, (a + min b (2 ^ 24) - 1) / 128 - a / 128 + 1)
      if f.mod = 0 then
        if 256 ≤ (s.di die).hints.length then give s 1
        else give (s.modDi die fun d => { d with hints := d.hints ++ [r] }) 0
      else if 64 ≤ (s.di die).scrubs.length then give s 1
      else give (s.modDi die fun d => { d with scrubs := d.scrubs ++ [r] }) 0

/-- `BALLAST` (R344). -/
def execBallast (f : V3) (s : State) : Host.Outcome State Fault Refusal := runWord (.ballast f) (stepBallast f) s

/-! ### Clock locks (R341) -/

/-- A clock-lock record to every context of the die's partition (R396). -/
def State.lockRecord (s : State) (die : Nat) (taken : Bool) : State :=
  let d := s.di die
  (s.ctx.filter fun (x : Nat × Ctx) => x.2.state ≥ 2 && inMask x.2.dies die).foldl (fun s x =>
    s.traceWrite x.1 [[6 * 2 ^ 56 + d.brk * 2 ^ 53 + taken.toNat * 2 ^ 52 + die * 2 ^ 50 + d.fmhz % 2 ^ 11 * 2 ^ 32 + s.time % 2 ^ 32,
      0, 0, 0]]) s

/-- A clock lock of a die is broken. -/
def State.lockBreak (s : State) (die cause : Nat) : State :=
  let d := s.di die
  if d.lk || d.lka then (s.setDi die { d with lk := false, lka := false, brk := cause, relock := true }).lockRecord die false else s

/-- CLKLOCK_WRITE (R341). -/
def execClklockWrite (who : Who) (die : Nat) (v : DWord) (s : State) : Host.Outcome State Fault Refusal :=
  .next (
    let fm := bitsOf v.toNat 48 11
    let lk := v.getLsbD 63
    if !whoHsm who then s.dropWrite who (hbmTop + 0x35000 + 8 * die)
    else if lk && !(decide (500 ≤ fm) && decide (fm ≤ 2000)) then s
    else if lk then s.modDi die fun d => { d with lk := true, lka := false, fmhz := fm, relock := true }
    else (s.lockBreak die 4).modDi die fun d => { d with fmhz := fm })

/-- CLOCK_RELOCK_DONE (R341): issue resumes, and a requested lock is in effect; at thermal step 4 or higher it is broken at once. -/
def execClockRelockDone (die : Nat) (s : State) : Host.Outcome State Fault Refusal :=
  .next (
    let d := s.di die
    if !d.relock then s
    else if d.lk && !d.lka then
      let s := (s.setDi die { d with relock := false, lka := true }).lockRecord die true
      if 4 ≤ s.pow.tstep then s.lockBreak die 2 else s
    else s.setDi die { d with relock := false })

/-- DROOP_DETECT (R338). -/
def execDroopDetect (die : Nat) (s : State) : Host.Outcome State Fault Refusal :=
  .next ((s.modDi die fun d => { d with droop := true, droopcnt := min (d.droopcnt + 1) (2 ^ 32 - 1) }).lockBreak die 1)

/-- DROOP_RECOVER (R338). -/
def execDroopRecover (die : Nat) (s : State) : Host.Outcome State Fault Refusal :=
  .next (s.modDi die fun d => { d with droop := false })

/-- The locks of all dies are broken. -/
def State.breakAll (s : State) (cause : Nat) : State := [0, 1, 2, 3].foldl (fun s d => s.lockBreak d cause) s

/-! ### Thermal steps (R329, R418) -/

/-- THERMAL_STEP_MOVE (R329, R417, R418): one place toward the target, at most every 100 µs, and logged; step 4 or higher breaks the locks. -/
def execThermalStepMove (s : State) : Host.Outcome State Fault Refusal :=
  .next (
    let p := s.pow
    if s.time < p.stepAt + 100000 ∨ p.tstep = p.tgtStep then s
    else
      let n := if p.tstep < p.tgtStep then p.tstep + 1 else p.tstep - 1
      let s := { s with pow := { p with tstep := n, stepAt := s.time } }.ras 7 5 0 n
      if 4 ≤ n then s.breakAll 2 else s)

/-- The target step of the hottest compute die, in 1/16 degree. -/
def stepOf (t : Nat) : Nat := if t < 95 * 16 then 0 else min 7 ((t - 95 * 16) / 32 + 1)

/-- The largest of a list. -/
def maxOf (l : List Nat) : Nat := l.foldl max 0

/-- The package has no power: what is kept is what flash and the one-time memories hold (R410, R414). -/
def State.powerOff (s : State) : State :=
  { State.reset with
    mg := { State.reset.mg with boot := .off, svn := s.mg.svn, minSvn := s.mg.minSvn, flash := s.mg.flash, boots := s.mg.boots
                                thermtrip := s.mg.thermtrip, strap := s.mg.strap, hbm := s.mg.hbm, cfg := s.mg.cfg }
    pkg := { State.reset.pkg with pod := s.pkg.pod, member := s.pkg.member, inc := s.pkg.inc, price := s.pkg.price } }

/-- SENSOR_SAMPLE (R337, R417 to R419): the readings, the charge of each die, the target step, and THERMTRIP at 115 °C, which is logged; the management
controller's log outlasts it, and its sideband falls silent. -/
def execSensorSample (sn : Sensors) (s : State) : Host.Outcome State Fault Refusal :=
  .next (
    let s := { s with
      mg := { s.mg with sensors := sn }
      pow := { s.pow with tgtStep := stepOf (maxOf (sn.temps.take 4)) } }
    let s := (([0, 1, 2, 3] : List Nat).zip sn.charge).foldl (fun s x => s.modDi x.1 fun d => { d with charge := x.2 }) s
    if sn.temps.any fun t => decide (115 * 16 ≤ t) then
      let s := { s with mg := { s.mg with thermtrip := true } }.ras 7 5 0 (maxOf sn.temps / 16)
      let t := s.powerOff
      { t with mg := { t.mg with ras := s.mg.ras, rasOver := s.mg.rasOver, silent := some t.time } }
    else s)

/-! ### Intents (R340, R343) -/

/-- The intent is active in an interval. -/
def Intent.active (i : Intent) (k : Nat) : Bool := i.adm && decide (i.n ≤ k) && decide (k < i.n + i.d)

/-- The intents that are neither ended nor withdrawn at an interval. -/
def pruneIntents (k : Nat) (l : List Intent) : List Intent := l.filter fun i => decide (k < i.n + i.d)

/-- The sum of the rates of some intents. -/
def rates (l : List Intent) : Nat := (l.map (·.rate)).sum

/-- The decision of the intents that start at n, class by class (R340). -/
def decideFrom (gbud stag n : Nat) : Nat → Nat → Nat → List Intent → List Intent
  | 0, _, _, l => l
  | fuel + 1, c, load, l =>
    let mine (i : Intent) : Bool := !i.adm && i.n == n && i.cls == c
    let nc := rates (l.filter mine)
    if 0 < c ∧ gbud < load + nc then
      l.map fun i => if !i.adm && i.n == n && decide (c ≤ i.cls) then { i with n := n + 1 } else i
    else decideFrom gbud stag n fuel (c + 1) (load + nc) (l.map fun i => if mine i then { i with adm := true } else i)

/-- INTENT_DECIDE at the start of interval n − 2. -/
def Pow.decide (p : Pow) (n : Nat) : Pow :=
  let load := rates (p.intents.filter fun i => i.adm && Decidable.decide (i.n < n) && i.active n)
  { p with intents := if p.gid = 0 then p.intents else decideFrom p.gbud p.stag n p.stag 0 load p.intents }

/-- The intent that a PINT carries to the members (R365). -/
def Pow.pintData (p : Pow) (i : Intent) : List Byte :=
  natLe 8 i.n ++ natLe 2 i.rate ++ natLe 2 i.d ++ natLe 2 p.grank ++ natLe 2 p.gid

/-- A PINT to a member outside the pod: a datagram to `PINTPORT` at the address of the member, outstanding until it is acknowledged (log 84). -/
def State.sendDatagram (s : State) (gdn : Nat) (data : List Byte) : State :=
  let tag := s.freeTag
  let pk : FabPkt := { kind := 6, via := noVia, sinc := s.pkg.inc, dinc := 0, seq := 0, tag, sgdn := s.gdn, dgdn := gdn, hop := 0, opx := 0, pa := 0
                       edge := 0, atype := 0, data := natLe 8 (s.gdn + 2 ^ 32 * (s.pkg.inc % 2 ^ 8)) ++ data }
  { s with fab := { s.fab with
      tag := (tag + 1) % 2 ^ 16
      out := s.fab.out ++ [{ pk, owner := .gov, sentAt := s.time }]
      udp := s.fab.udp ++ [(s.memberAddr gdn, s.pkg.pintport, pk.data)] } }

/-- A PINT to one member: a packet in the pod, which waits behind the earlier ones to it while there is no room, a datagram outside it. -/
def State.sendPint (s : State) (gdn : Nat) (data : List Byte) : State :=
  let wait : State := { s with fab := { s.fab with pints := s.fab.pints ++ [(gdn, data)] } }
  if gdn = s.gdn then s
  else if gdn / 2 ^ 10 ≠ s.pkg.pod then s.sendDatagram gdn data
  else if s.fab.pints.any fun x => x.1 == gdn then wait
  else match s.request .gov 6 gdn 0 0 0 (s.rootEdge 0) data with
    | some (_, s) => s
    | none => wait

/-- The PINTs that wait are tried again, oldest first. -/
def State.flushPints (s : State) : State :=
  s.fab.pints.foldl (fun s x => s.sendPint x.1 x.2) { s with fab := { s.fab with pints := [] } }

/-- The intent of a member is posted on this device and to its power group (R343). -/
def State.postIntent (s : State) (n d rate : Nat) : State :=
  let p := s.pow
  let i : Intent := { n, d, rate, cls := p.grank % p.stag, own := true, adm := p.gid == 0, n0 := n, rank := p.grank, inc := s.pkg.inc, gdn := s.gdn }
  let s := { s with pow := { p with intents := p.intents ++ [i] } }
  if p.gid = 0 then s else (p.members.map (·.2.1)).foldl (fun s g => s.sendPint g (p.pintData i)) s

/-- The step of `INTENT` (R343). -/
def stepIntent (f : V3) (e : Env) (tid : Nat) (s : State) : Lane :=
  let t := e.s0.th tid
  let a := (t.val f.a).toNat
  let b := min 4000 (t.val f.b).toNat
  let k := s.pow.k
  let give (s : State) (x : Nat) : Lane := .done (s.modTh tid fun th => th.write f.d [.ofNat 32 x])
  if b = 0 then give s 0
  else if 16 ≤ ((pruneIntents k s.pow.intents).filter (·.own)).length then give s 2
  else
    let start := a / 2 ^ 16
    let d := max 1 (a % 2 ^ 16)
    let late : Bool := start < s.pow.ilead
    let n := if late then k + s.pow.ilead else k + start
    give (s.postIntent n d ((b + d - 1) / d)) (if s.pow.gid = 0 then 3 else late.toNat)

/-- `INTENT` (R343). -/
def execIntent (f : V3) (s : State) : Host.Outcome State Fault Refusal := runWord (.intent f) (stepIntent f) s

/-! ### The governor (R331 to R333) -/

/-- The demand of one core in the interval that ends, in 1/256 token (R332). -/
def State.coreDemand (s : State) (c : Nat) : Nat :=
  let x := s.co c
  let d := s.di (coreDie c)
  let all := d.cycles - d.cyclesAt
  let free := all - x.stalled
  if 0 < free then x.charged + x.stalled * x.charged / free else s.refillCap * 256 * 125 / 8

/-- `DEMAND` of the interval that ends, W. -/
def State.demandOf (s : State) (u : Nat) : Nat :=
  u + ((upto 320).map s.coreDemand).sum / 256000 + 12 * s.pow.wakes

/-- `DEFER` (R333): of the oldest intent of this device that has not begun. -/
def Pow.deferOf (p : Pow) : Nat :=
  match p.intents.find? fun i => i.own && Decidable.decide (p.k < i.n) with
  | some i => min 255 (i.n - i.n0)
  | none => 0

/-- The governor's step of `PSET` (R331). -/
def Pow.nextSet (p : Pow) (demand : Nat) : Nat :=
  let top := min p.pmax (p.pmax * (8 - p.tstep) / 8)
  let tgt := max p.pmin (min demand top)
  let up := min p.slew (p.sfree + rates (p.intents.filter fun i => i.own && i.active (p.k + 1)))
  if p.pset ≤ tgt then min tgt (p.pset + up) else max tgt (p.pset - p.slew)

/-- The start of interval k + 1: `PSET`, the fill rate, `PWRSTAT`, the decision of intents, and the interval's counts begin again. -/
def State.governor (s : State) (u : Nat) : State :=
  let p := s.pow
  let demand := s.demandOf u
  let pset := p.nextSet demand
  let k := p.k + 1
  let p1 := { p with k, pset, demand, tstat := p.tstep, ball := p.drawn / 256000, bshort := p.lost / 256000, fill := pset - u, wakes := 0, drawn := 0,
                     lost := 0, intents := pruneIntents k p.intents }
  let p2 := p1.decide (k + 2)
  let s := { s with pow := { p2 with defer := p2.deferOf } }
  let s := { s with core := s.core.map fun (x : Nat × Core) => (x.1, { x.2 with charged := 0, stalled := 0 }) }
  let s := { s with core := s.core.filter fun (x : Nat × Core) => !(x.2 == Core.fresh) }
  let high := p.pmax < demand
  let s := [0, 1, 2, 3].foldl (fun s d => s.modDi d fun x =>
    { x with cyclesAt := x.cycles, above := if high then min 10 (x.above + 1) else 0 }) s
  [0, 1, 2, 3].foldl (fun s d => if (s.di d).above = 10 then s.lockBreak d 3 else s) s

/-- GOVERNOR_INTERVAL (R331): once each interval has begun; `u` is the unmetered draw of the one before, W. -/
def execGovernorInterval (u : Nat) (s : State) : Host.Outcome State Fault Refusal :=
  .next (if s.pow.k < s.time / 1000 then s.governor u else s)

/-! ### Gating (R336) -/

/-- The surplus test of R336 for a core cluster, in half watts. -/
def State.gateOk (s : State) (cl : Nat) : Bool :=
  let p := s.pow
  let idle (f : Nat → Bool) : Nat := ((upto 320).filter fun c => f c && s.idleCore c).length
  let hints := 2 * s.hintNeed / 256000
  let other := hints + 2 * p.scrubmax + 5 * idle (fun c => coreCcl c != cl)
  let all := hints + 2 * p.scrubmax + 5 * idle (fun _ => true)
  let sur := 2 * (p.pset - p.demand)
  Decidable.decide ((sur - all) + (24 - (other - min sur other)) ≤ 2 * p.slew)

/-! ### Reading (R342) and prices (R324) -/

/-- Whole tokens of a level, toward −∞. -/
def tokens (x : Int) : DWord := .ofInt 64 (x / 256)

/-- The value of a `TOKQ` selector. -/
def State.tokq (s : State) (core sel idx : Nat) : DWord :=
  let d := s.di (coreDie core)
  let n (x : Nat) : DWord := .ofNat 64 x
  match sel with
  | 0 => tokens (s.co core).bucket
  | 1 => tokens d.bucket
  | 2 => tokens s.pow.bucket
  | 3 => (Tbl.get 0 s.pkg.price (idx % 2 ^ 12)).setWidth 64
  | 4 => n s.pow.demand
  | 5 => n s.pow.ball
  | 6 => n s.pow.bshort
  | 7 => n s.refillCap
  | 8 => n s.pow.tstat
  | 9 => n (d.lka.toNat + 16 * (d.fmhz % 2 ^ 12) + 2 ^ 16 * d.brk)
  | 0xA => n s.pow.defer
  | 0x10 => n (s.co core).stalls
  | 0x11 => n (s.time / 1000)
  | _ => 0

/-- `TOKQ` (R342). -/
def execTokq (f : Sy) (s : State) : Host.Outcome State Fault Refusal :=
  runReg (.tokq f) f.d (fun e _ t => outWidth (tokqWidth f.sel.toNat) (e.s0.tokq e.core f.sel.toNat (t.val f.a).toNat)) s

/-- Level F, or the management controller (R7, R324). -/
def whoF : Who → Bool
  | .mc => true
  | .cp _ _ => true
  | _ => false

/-- PRICE_DATA_WRITE (R324). -/
def execPriceDataWrite (who : Who) (v : DWord) (s : State) : Host.Outcome State Fault Refusal :=
  .next (if whoF who then { s with pkg := { s.pkg with price := Tbl.set 0 s.pkg.price s.pkg.priceIdx (v.setWidth 32) } }
    else s.dropWrite who (hbmTop + 0x78))

end Sys2Proof.Machine
end

