-- ==== Sys2Proof/Machine/Kernel.lean ====
section
/-!
DEFINITION. Code objects (R70 to R72, R238, R290, R300), the checks of a launch (R303, R307), the arbiter (R56), placement (R96, R98 to R101,
R304, R308), and retirement and completion (R57, R305, R306, R319).
-/
namespace Sys2Proof.Machine

/-! ### Code objects -/

/-- What the CP reads of a code object: its header, KINFO and TILES, and where its SPLICE section stands. -/
structure KObj where
  va : Nat
  kid : DWord
  text : Nat
  textLen : Nat
  entry : Nat
  regs : Nat
  spad : Nat
  csize : Nat
  ming : Nat
  bdx : Nat
  bdy : Nat
  bdz : Nat
  psz : Nat
  tiles : List Tile
  splice : Option (Nat × Nat)
  deriving DecidableEq, Repr

/-- A signed 16-bit field of a word. -/
def s16 (w lo : Nat) : Int := sextNat 16 (w / 2 ^ lo)

/-- A tile descriptor from its words (R238). -/
def Tile.ofWords (w : List Nat) : Tile :=
  let g (i : Nat) : Nat := w.getD i 0
  { param := bitsOf (g 0) 32 8, hv := (g 0).testBit 31, hslot := bitsOf (g 0) 24 4, elt := bitsOf (g 0) 20 4, role := bitsOf (g 0) 18 2
    shape := bitsOf (g 0) 11 5, rows := g 1 / 2 ^ 32, cols := g 1 % 2 ^ 32, stride := g 2
    mx := s16 (g 3) 48, my := s16 (g 3) 32, mi := s16 (g 3) 16, m0 := s16 (g 3) 0
    nx := s16 (g 4) 48, ny := s16 (g 4) 32, ni := s16 (g 4) 16, n0 := s16 (g 4) 0 }

/-- A tile descriptor that a launch with `nh` handle entries takes (R238, R290). -/
def Tile.ok (d : Tile) (nh : Nat) : Bool :=
  let want : Ty := if d.role = 2 then accTy d.shape else if d.shape = 7 then .z8 else shapeTy d.shape
  decide (d.shape < 8) && d.role != 3 && d.rows != 0 && d.cols != 0 && Ty.ofCode d.elt == want &&
    !(d.shape == 7 && d.cols % 2 == 1) && !(d.hv && decide (nh ≤ d.hslot))

/-- The section of a kind: its address and length.  Of a table that names a kind twice, which R71 excludes, the first entry counts (log 89). -/
def sectionOf (va kind : Nat) (tab : List (List Nat)) : Option (Nat × Nat) :=
  (tab.find? fun e => (e.getD 0 0) / 2 ^ 56 == kind).map fun e => (va + e.getD 0 0 % 2 ^ 32, e.getD 1 0)

/-- The code object at an address, but for its tile descriptors (R70 to R72, R300), or the queue fault that it gives; with the place of its TILES
section and their number.  Of more than 16 sections the first 16 are read, and an entry that is no multiple of 8 is taken as it stands (log 114). -/
def State.readObj (s : State) (q : Option Nat) (cid va : Nat) : Except Nat (KObj × Nat × Nat) × State :=
  match s.cpWords q cid va 8 with
  | (none, s) => (.error qAccess, s)
  | (some h, s) =>
    let w (i : Nat) : Nat := h.getD i 0
    let nsec := min 16 (w 1 % 2 ^ 16)
    if w 0 % 2 ^ 32 ≠ 0x4F434E58 ∨ bitsOf (w 0) 32 16 ≠ 1 ∨ bitsOf (w 0) 48 16 ≠ 1 then (.error qBadfield, s)
    else match s.cpWords q cid (va + 64) (2 * nsec) with
      | (none, s) => (.error qAccess, s)
      | (some t, s) =>
        let tab := chunksOf 2 nsec t
        match sectionOf va 1 tab, sectionOf va 3 tab with
        | some (tva, tlen), some (kva, _) =>
          match s.cpWords q cid kva 4 with
          | (none, s) => (.error qAccess, s)
          | (some k, s) =>
            let k0 := k.getD 0 0
            let k1 := k.getD 1 0
            let o : KObj := {
              va, kid := .ofNat 64 (w 3), text := tva, textLen := tlen, entry := w 2 % 2 ^ 32, regs := k0 % 2 ^ 8, spad := k0 / 2 ^ 32
              csize := bitsOf k0 8 8, ming := bitsOf k0 16 7, bdx := k1 % 2 ^ 16, bdy := bitsOf k1 16 16, bdz := bitsOf k1 32 16
              psz := k.getD 2 0 % 2 ^ 8, tiles := [], splice := sectionOf va 6 tab }
            let n := o.bdx * o.bdy * o.bdz
            if o.regs < 8 ∨ 240 < o.regs ∨ o.regs % 8 ≠ 0 ∨ 393216 < o.spad ∨ o.spad % 64 ≠ 0 ∨ o.csize < 1 ∨ 8 < o.csize ∨ 64 < o.ming ∨
                n < 1 ∨ 1024 < n then (.error qBadfield, s)
            else (.ok (o, match sectionOf va 5 tab with | some (a, n) => (a, min 64 (n / 64)) | none => (0, 0)), s)
        | _, _ => (.error qBadfield, s)

/-- One block alone fits a core (R99). -/
def fitsAlone (n regs spad : Nat) : Bool :=
  let g := (4 * ((n + 3) / 4) + 31) / 32
  decide (g * regs ≤ 4096) && decide (spad ≤ 393216)

/-- The bytes of a parameter block of `psz` words. -/
def State.readBlock (s : State) (q : Option Nat) (cid va psz : Nat) : Except Nat (List Byte) × State :=
  match s.cpWords q cid va psz with
  | (some ws, s) => (.ok (ws.flatMap (natLe 8 ·)), s)
  | (none, s) => (.error qAccess, s)

/-- The checks that a LAUNCH and a COLLECT share, in the order of R303, and the parameter snapshot after them all: `shape` is order 2, `last` what
follows order 5.  A COLLECT gives no size, and takes the object's. -/
def State.objCheck (s : State) (q : Option Nat) (cid code : Nat) (size : Option Nat) (param nh : Nat) (shape last : KObj → Bool) :
    Except Nat (KObj × List Byte) × State :=
  if code % 4096 ≠ 0 then (.error qBadfield, s)
  else match s.readObj q cid code with
    | (.error c, s) => (.error c, s)
    | (.ok (o, tile, ntile), s) =>
      let psz := size.getD o.psz
      if !shape o ∨ !fitsAlone (o.bdx * o.bdy * o.bdz) o.regs o.spad ∨ psz < o.psz ∨ o.spad < 8 * psz then (.error qBadfield, s)
      else match s.cpWords q cid tile (8 * ntile) with
        | (none, s) => (.error qAccess, s)
        | (some d, s) =>
          let o := { o with tiles := (chunksOf 8 ntile d).map Tile.ofWords }
          if !(o.tiles.all fun d => d.ok nh) ∨ !last o ∨ param % 8 ≠ 0 then (.error qBadfield, s)
          else match s.readBlock q cid param psz with
            | (.ok bs, s) => (.ok (o, bs), s)
            | (.error c, s) => (.error c, s)

/-- The fields of a LAUNCH (R52). -/
def pkGrid (p : Packet) : Nat × Nat × Nat := (bitsOf (pkWord p 2) 32 31, bitsOf (pkWord p 2) 16 16, pkWord p 2 % 2 ^ 16)

/-- Order 2 of R303: the grid's sizes, which the cluster size divides. -/
def gridOk (p : Packet) (o : KObj) : Bool :=
  let (gx, gy, gz) := pkGrid p
  gx != 0 && gy != 0 && gz != 0 && gx % o.csize == 0

/-- Order 6 of R303, and the other fields of R52. -/
def fieldsOk (p : Packet) : Bool :=
  decide (pkNh p ≤ 16) && (pkNh p != 0) == pkExtBit p && decide (bitsOf (pkWord p 0) 16 7 ≤ 64) && pkAddr p 4 % 32 == 0

/-- The checks of a LAUNCH (R303), which begins on a queue or is looked at (R311). -/
def State.launchCheck (s : State) (q : Option Nat) (cid : Nat) (p : Packet) : Except Nat (KObj × List Byte) × State :=
  s.objCheck q cid (pkAddr p 1) (some (pkWord p 3 / 2 ^ 56)) (pkAddr p 3) (pkNh p) (gridOk p) fun _ => fieldsOk p

/-- The grid of a code object. -/
def KObj.grid (o : KObj) (cid q idx : Nat) (params : List Byte) : Grid :=
  { cid, q, idx, code := o.va, text := o.text, textLen := o.textLen, entry := (o.text + o.entry) % 2 ^ 56, kid := o.kid, regs := o.regs
    spad := o.spad, bdx := o.bdx, bdy := o.bdy, bdz := o.bdz, csize := o.csize, ming := o.ming, params, tiles := o.tiles }

/-- The grid of a LAUNCH. -/
def launchGrid (o : KObj) (cid q idx : Nat) (p : Packet) (params : List Byte) : Grid :=
  let (gx, gy, gz) := pkGrid p
  let m := bitsOf (pkWord p 0) 16 7
  { o.grid cid q idx params with gx, gy, gz, ming := if m = 0 then o.ming else m }

/-- A grid number is taken (R303). -/
def State.takeNum (s : State) : Nat × State := (s.gridCtr, { s with gridCtr := s.gridCtr + 1 })

/-- The die of a queue's CP thread, or of the lead CP when no thread holds it. -/
def State.qDie (s : State) (q : Nat) : Nat :=
  let h := s.qv q
  if h.mapped then h.die else leadDie (s.cx h.cid).dies

/-- A grid is launched: its edge of kind queue is made, with its packet's tag (R50), and its blocks wait for placement (R303, R398). -/
def State.startGrid (s : State) (n : Nat) (g : Grid) (die prod pred obj : Nat) (tag : Nat := 0) : State :=
  let (id, s) := s.newEdge die g.cid { kind := 3, waiter := noLid, prod, obj, pred, tag }
  s.setGr n { g with live := true, num := n % 2 ^ 32, edge := id }

/-! ### The arbiter (R56) -/

/-- A queue's quantum. -/
def QHeld.quantum (h : QHeld) : Nat := max 1 h.weight * 1024

/-- The queue after another in the cyclic order of a class. -/
def nextOf (cl : List Nat) (cur : Nat) : Nat := ((cl.find? fun q => decide (cur < q)).getD (cl.headD 0))

/-- The arbiter's cursor moves on until it stands at a ready queue whose deficit is positive; a queue that it leaves without work of any kind
(`busy`) has its deficit cut to 0. -/
def State.moveCursor (s : State) (cl ready busy : List Nat) : Nat → Nat → Nat × State
  | 0, cur => (cur, s)
  | fuel + 1, cur =>
    let h := s.qv cur
    if ready.contains cur && decide (0 < h.deficit) then (cur, s)
    else
      let s := if busy.contains cur || !cl.contains cur then s else s.qput cur { h with deficit := min h.deficit 0 }
      let n := nextOf cl cur
      let x := s.qv n
      let qt : Int := x.quantum
      let s := if ready.contains n then s.qput n { x with deficit := min (x.deficit + qt) (4 * qt) } else s
      s.moveCursor cl ready busy fuel n

/-- The queue that is served next among the ready ones: of the highest class, by deficit round-robin. -/
def State.arbitrate (s : State) (dies : Nat) (cand ready busy : List Nat) : Option (Nat × State) :=
  match ready with
  | [] => none
  | _ =>
    let cls := maxOf (ready.map fun q => (s.qv q).pcls)
    let cl := cand.filter fun q => (s.qv q).pcls == cls
    let rd := ready.filter fun q => (s.qv q).pcls == cls
    let key := 16 * dies + cls
    let owe := maxOf (rd.map fun q => (-(s.qv q).deficit).toNat)
    let cur := Tbl.get 0 s.cursor key
    let start := if cur = 0 then nextOf cl 4096 else cur - 1
    let (q, s1) := s.moveCursor cl rd busy (cl.length * (owe / 1024 + 2) + 1) start
    some (q, { s1 with cursor := Tbl.set 0 s1.cursor key (q + 1) })

/-! ### Placement (R96, R98 to R101, R304) -/

/-- The blocks on a core. -/
def State.blksOn (s : State) (core : Nat) : List (Nat × Blk) := s.blk.filter fun x => x.2.live && x.2.core == core

/-- A block of a grid fits a core beside those it holds (R99). -/
def State.fits (s : State) (g : Grid) (core : Nat) : Bool :=
  let gs := (s.blksOn core).map fun x => s.gr x.2.gid
  let sum (f : Grid → Nat) : Nat := (gs.map f).sum
  !(s.co core).retired && decide (sum Grid.gangs + g.gangs ≤ 64) && decide (sum (fun x => x.gangs * x.regs) + g.gangs * g.regs ≤ 4096) &&
    decide (gs.length < 64) && decide (sum (·.spad) + g.spad ≤ 393216)

/-- Thread slots taken on a core. -/
def State.slotsOn (s : State) (core : Nat) : Nat := ((s.blksOn core).map fun x => (s.gr x.2.gid).slots).sum

/-- The core clusters of a die mask. -/
def partClusters (dies : Nat) : List Nat := (upto 40).filter fun c => inMask dies (c / 10)

/-- The cores of a core cluster. -/
def clusterCores (cl : Nat) : List Nat := (upto 8).map fun i => 8 * cl + i

/-- The cores that take the next block, or blocks, of a grid in one core cluster (R101, step 2). -/
def State.coresFor (s : State) (g : Grid) (cl : Nat) : Option (List Nat) :=
  let fit := (clusterCores cl).filter (s.fits g)
  if fit.length < g.csize then none
  else if g.csize = 1 then
    let most := maxOf (fit.map s.slotsOn)
    (fit.find? fun c => s.slotsOn c == most).map ([·])
  else some (fit.take g.csize)

/-- The cores that take the next block of a grid: in the lowest awake core cluster that can hold it. -/
def State.pickCores (s : State) (g : Grid) : Option (List Nat) :=
  ((partClusters (s.cx g.cid).dies).filter fun c => (s.cc c).awake && !(s.cc c).waking).findSome? (s.coresFor g)

/-- The first place for a region in a core's scratchpad: the lowest that meets no other block's (log 32).  The end of the last region is always such
a place, since a core's share of the locations is larger than its scratchpad; R99 bounds the sum. -/
def State.spadFor (s : State) (core n : Nat) : Nat :=
  let used := (s.blksOn core).map fun x => (x.2.spadBase, (s.gr x.2.gid).spad)
  let free (a : Nat) : Bool := used.all fun u => decide (a + n ≤ u.1) || decide (u.1 + u.2 ≤ a)
  ((sortBy id (0 :: used.map fun u => u.1 + u.2)).find? free).getD 0

/-- A thread as launched (R98). -/
def Grid.thread (g : Grid) (slot : Nat) : Thr :=
  { pc := mkPc g.entry 0, regs := List.replicate g.regs 0, edge := g.edge, helper := g.threads ≤ slot
    st := if g.node.isSome && decide (g.recs.length ≤ slot) then .never else .ready }

/-- The threads of a block are made. -/
def State.putThreads (s : State) (bid : Nat) (f : Nat → Thr) : List Nat → State
  | [] => s
  | i :: is => (s.setTh (1024 * bid + i) (f i)).putThreads bid f is

/-- A collector record's bytes (R308). -/
def recBytes (r : List Nat) : List Byte :=
  let g (i : Nat) : Nat := r.getD i 0
  natLe 8 (g 0) ++ natLe 8 (g 1) ++ natLe 4 (g 2) ++ natLe 2 (g 3) ++ natLe 2 (g 4) ++ natLe 4 (g 5) ++ natLe 4 0

/-- Where a collector gang's records begin: S of R307. -/
def recStart (params : List Byte) : Nat := (params.length + 31) / 32 * 32

/-- What the distributor stores into a block's region before its first issue (R304, R308, R315). -/
def State.storeParams (s : State) (g : Grid) (loc : Nat) : State :=
  let s := (s.wr loc g.params).wr (loc + g.cparams.1) g.cparams.2
  if g.node.isSome then s.wr (loc + recStart g.params) ((upto 32).flatMap fun i => recBytes (g.recs.getD i [])) else s

/-- A block is made on a core. -/
def State.newBlk (s : State) (gid : Nat) (g : Grid) (lin rank core : Nat) (peers : List Nat) (bid : Nat) : State :=
  let base := s.spadFor core g.spad
  let b : Blk := { live := true, core, gid, bx := lin % g.gx, by' := lin / g.gx % g.gy, bz := lin / (g.gx * g.gy), crank := rank, peers
                   spadBase := base, placed := s.time, cyc := (s.di (coreDie core)).cycles, order := bid }
  (((s.setBk bid b).modCo core fun c => { c with testing := false }).putThreads bid g.thread (upto g.slots)).storeParams g
    (spadLoc core base)

/-- The blocks of a block cluster are made, rank by rank. -/
def State.newBlks (s : State) (gid : Nat) (g : Grid) (lin first : Nat) (peers : List Nat) : List (Nat × Nat) → State
  | [] => s
  | (i, core) :: rest => (s.newBlk gid g (lin + i) i core peers (first + i)).newBlks gid g lin first peers rest

/-- A gated core cluster is woken (R101, R332). -/
def State.wake (s : State) (cl : Nat) : State :=
  let s := s.setCc cl { awake := false, waking := true, since := s.time }
  { s with pow := { s.pow with wakes := s.pow.wakes + 1 } }

/-- When no awake core cluster fits: the lowest gated one is woken, unless one is waking. -/
def State.wakeFor (s : State) (dies : Nat) : State :=
  let cls := partClusters dies
  if cls.any fun c => (s.cc c).waking then s
  else match cls.find? fun c => !(s.cc c).awake with
    | some c => s.wake c
    | none => s

/-- The next block, or block cluster, of a grid is placed; none when it waits (R100, R101). -/
def State.placeNext (s : State) (gid : Nat) : Option State :=
  let g := s.gr gid
  match s.pickCores g with
  | none => none
  | some cores =>
    let first := s.blkCtr
    let peers := (upto g.csize).map (first + ·)
    let s := { s with blkCtr := first + g.csize }
    let s := s.newBlks gid g g.next first peers ((upto g.csize).zip cores)
    some (s.setGr gid { g with next := g.next + g.csize })

/-! ### The context that runs (R33) -/

/-- The blocks of a grid. -/
def Grid.total (g : Grid) : Nat := g.gx * g.gy * g.gz

/-- The grids of a context with blocks to place, in the order of their launch. -/
def State.waiting (s : State) (cid : Nat) : List (Nat × Grid) :=
  s.grid.filter fun x => x.2.live && x.2.cid == cid && !x.2.saved && decide (x.2.next < x.2.total)

/-- A context has work pending: blocks to place, or saved blocks to restore. -/
def State.hasWork (s : State) (cid : Nat) : Bool := (s.cx cid).state == 6 || !(s.waiting cid).isEmpty

/-- The context in a state that shares a die with a mask. -/
def State.ctxOn (s : State) (dies : Nat) (p : Nat → Bool) : Option Nat :=
  (s.ctx.find? fun (x : Nat × Ctx) => p x.2.state && x.2.dies &&& dies != 0).map (·.1)

/-- The better of two contexts (R33): higher `PRIO`, then the longer wait; of two that have waited alike the lower number (log 90). -/
def State.betterCtx (s : State) (a b : Nat) : Nat :=
  let x := s.cx a
  let y := s.cx b
  if x.prio < y.prio ∨ (x.prio = y.prio ∧ y.leftRun.getD 0 < x.leftRun.getD 0) then b else a

/-- The Ready or Saved context of a partition that is chosen next. -/
def State.chosen (s : State) (dies : Nat) : Option Nat :=
  match (s.ctx.filter fun (x : Nat × Ctx) => (x.2.state == 3 || x.2.state == 6) && x.2.dies == dies && s.hasWork x.1).map (·.1) with
  | [] => none
  | c :: cs => some (cs.foldl s.betterCtx c)

/-- The grid whose block the arbiter serves next among a context's queues: those with blocks to place compete, mapped or not (R56, R60; log 91). -/
def State.nextGrid (s : State) (cid : Nat) : Option (Nat × State) :=
  let w := s.waiting cid
  let qs := (sortBy id (w.map (·.2.q))).eraseDups
  let mapped := s.mappedOn (s.cx cid).dies
  let cand := (sortBy id (qs ++ mapped)).eraseDups
  (s.arbitrate (s.cx cid).dies cand qs (qs ++ mapped.filter s.pktReady)).bind fun (q, s) => (w.find? fun x => x.2.q == q).map fun x => (x.1, s)

/-- A block of a context is placed when the arbiter serves its grid; a context's first dispatch makes it Running. -/
def State.dispatch (s : State) (cid : Nat) (want : Option Nat) : State :=
  match s.nextGrid cid with
  | none => s
  | some (gid, s1) =>
    if want.isSome && want != some gid then s
    else match s1.placeNext gid with
      | none => s1.wakeFor (s1.cx cid).dies
      | some s2 => if (s2.cx cid).state = 3 then s2.modCx cid fun c => { c with state := 4, sliceAt := s2.time } else s2

/-- BLOCK_PLACE (R101): the next block of a grid of the partition's Running context, or of the one chosen to run. -/
def execBlockPlace (gid : Nat) (s : State) : Host.Outcome State Fault Refusal :=
  .next (
    let cid := (s.gr gid).cid
    let dies := (s.cx cid).dies
    match s.ctxOn dies (fun st => st == 4 || st == 5) with
    | some r => if r = cid ∧ (s.cx r).state = 4 then s.dispatch cid (some gid) else s
    | none => if s.chosen dies = some cid ∧ (s.cx cid).state = 3 then s.dispatch cid (some gid) else s)

/-- CLUSTER_WAKE_DONE (R101). -/
def execClusterWakeDone (cl : Nat) (s : State) : Host.Outcome State Fault Refusal :=
  .next (if (s.cc cl).waking ∧ (s.cc cl).since + 1500 ≤ s.time then s.setCc cl { awake := true, waking := false, since := s.time } else s)

/-- A core cluster holds no block, and its BTUs are idle. -/
def State.clusterIdle (s : State) (cl : Nat) : Bool :=
  (clusterCores cl).all fun c => (s.blksOn c).isEmpty && (s.co c).chans.all fun k => k.xs.isEmpty

/-- CLUSTER_GATE (R101, R336). -/
def execClusterGate (cl : Nat) (s : State) : Host.Outcome State Fault Refusal :=
  .next (if (s.cc cl).awake && s.clusterIdle cl && decide ((s.cc cl).since + 10000 ≤ s.time) && s.gateOk cl then
      s.setCc cl { awake := false, waking := false, since := s.time } else s)

/-! ### Completion (R305, R306, R319) -/

/-- The completion record of a packet (R306). -/
def State.complRec (s : State) (g : Grid) (p : OutPkt) (role : Nat) : List Byte :=
  natLe 8 (p.spr * 2 ^ 56 + p.srsn * 2 ^ 48 + role * 2 ^ 40 + p.w0.toNat / 2 ^ 32) ++ natLe 8 g.num ++ natLe 8 g.retired ++ natLe 8 s.time

/-- The record is written, or dropped with a fault record. -/
def State.putRec (s : State) (g : Grid) (p : OutPkt) (role : Nat) : State :=
  if p.crec = 0 then s
  else match s.cpPlace p.cid p.crec false true with
    | (.ok (.loc n), s) => s.wr n (s.complRec g p role) (s.cpStamp p.q)
    | (.ok _, s) => s.cpRec p.cid p.q cAccess p.crec true g.num
    | (.error c, s) => s.cpRec p.cid p.q c p.crec true g.num

/-- One packet of a completed grid: the edge of kind signal, which the CP thread adopts, the record and the signal. -/
def State.finishPkt (s : State) (g : Grid) (prod pred : Nat) (p : OutPkt) (role : Nat) : State :=
  let h := s.qv p.q
  let (id, s) := s.newEdge (s.qDie p.q) p.cid
    { kind := 6, waiter := cpLid (s.qDie p.q) h.thr, prod, obj := if p.w0.getLsbD 9 then p.w6.toNat % 2 ^ 56 else 0, pred
      tag := p.w0.toNat / 2 ^ 32 }
  let s := s.putRec g p role
  let s := if h.mapped then s.qput p.q { s.qv p.q with edge := id } else s
  s.pkSignal p

/-- A pinned splice entry is unpinned once (R317). -/
def State.unpin (s : State) (id : Nat) : State :=
  { s with splices := s.splices.filterMap fun e =>
      if e.id = id then (if e.pins ≤ 1 ∧ !e.valid then none else some { e with pins := e.pins - 1 }) else some e }

/-- A grid completes; the CP thread of the launching queue adopts the edge of a collector gang too (R398). -/
def State.gridDone (s : State) (gid : Nat) (prod pred : Nat) : State :=
  let g := s.gr gid
  let find (s : State) (i : Nat) : Option OutPkt := s.pkts.find? fun p => p.q == g.q && p.idx == i && p.begun
  let idxs : List Nat := if g.node.isSome then [] else g.idx :: g.pair.toList
  let s := if g.node.isSome then
      let (id, s) := s.newEdge (s.qDie g.q) g.cid { kind := 6, waiter := cpLid (s.qDie g.q) (s.qv g.q).thr, prod, obj := 0, pred }
      if (s.qv g.q).mapped then s.qput g.q { s.qv g.q with edge := id } else s
    else s
  let s := ((upto idxs.length).zip idxs).foldl (fun s x => match find s x.2 with
    | some p => s.finishPkt g prod pred p (if g.pair.isSome then x.1 + 1 else 0)
    | none => s) s
  let s := idxs.foldl (fun s i => s.dropPkt g.q i) s
  let s := match g.spl with | some id => s.unpin id | none => s
  { s with grid := Tbl.set {} s.grid gid {} }

/-! ### Retirement (R57, R305) -/

/-- A block may retire. -/
def State.retirable (s : State) (bid : Nat) : Bool :=
  let b := s.bk bid
  let g := s.gr b.gid
  let tids := (upto g.slots).map (1024 * bid + ·)
  b.live && !b.done &&
    (tids.all fun t => let x := s.th t; (x.helper || x.st == .exited || x.st == .never) && x.flagsZero) &&
    !((s.co b.core).chans.any fun k => k.xs.any fun x => match x.tid with | some t => tidBlk t == bid | none => false)

/-- The threads of a block end; the groups of its core lose them. -/
def State.endThreads (s : State) (bid core : Nat) (tids : List Nat) : State :=
  let s := tids.foldl (fun s t => s.modTh t fun x => if x.st = .never then x else
    { x with st := .exited, halt := none, preempt := none, wait := .none }) s
  let stay (t : Nat) : Bool := tidBlk t != bid
  s.modCo core fun c => { c with grp := c.grp.bind (·.keep stay), parked := c.parked.filterMap (·.keep stay) }

/-- A queue is debited (R57). -/
def State.debit (s : State) (q x : Nat) : State := let h := s.qv q; s.qput q { h with deficit := h.deficit - x }

/-- The debit of a block: core cycles resident × thread slots ÷ 2,048, rounded up. -/
def State.blkCost (s : State) (b : Blk) : Nat :=
  (((s.di (coreDie b.core)).cycles - b.cyc) * (s.gr b.gid).slots + 2047) / 2048

/-- The blocks of a block cluster leave their cores once every one has retired. -/
def State.freePeers (s : State) (b : Blk) : State := if b.peers.all fun p => (s.bk p).done then s.dropBlks b.peers else s

/-- A Running context without resident blocks is Ready (R29, R33, R344). -/
def State.idleCtx (s : State) (cid : Nat) : State :=
  let c := s.cx cid
  if c.state = 4 ∧ !(s.blk.any fun x => x.2.live && (s.gr x.2.gid).cid == cid) then
    (s.setCx cid { c with state := 3, leftRun := some s.time }).dropHints cid
  else s

/-- A block retires. -/
def State.retireBlk (s : State) (bid : Nat) : State :=
  let b := s.bk bid
  let g := s.gr b.gid
  let prod := s.threadLid b.lastTid
  let pred := (s.th b.lastTid).edge % 2 ^ 48
  let s := s.endThreads bid b.core ((upto g.slots).map (1024 * bid + ·))
  let s := s.debit g.q (s.blkCost b)
  let s := (s.setBk bid { b with done := true }).setGr b.gid { g with retired := g.retired + 1 }
  let last := s.blk.all fun x => !(x.2.live && (s.gr x.2.gid).cid == g.cid && !x.2.done)
  let s := s.freePeers b
  let s := if g.retired + 1 = g.total then s.gridDone b.gid prod pred else s
  if last then s.idleCtx g.cid else s

/-- BLOCK_RETIRE (R305). -/
def execBlockRetire (bid : Nat) (s : State) : Host.Outcome State Fault Refusal :=
  .next (if s.retirable bid then s.retireBlk bid else s)

/-! ### Collectors (R307, R308) -/

/-- A gather is launched as a gang: a grid of one block with the records in its scratchpad; its edge's producer is the sender of the last
record. -/
def State.launchGang (s : State) (dies node : Nat) (x : Gather) : State :=
  let (n, s) := s.takeNum
  let g := { x.grid with node := some (dies * 256 + node), recs := x.recs }
  let last := x.recs.getLast?.getD []
  s.startGrid n g (s.qDie g.q) (last.getD 6 noLid) (last.getD 1 0) (2 ^ 12 + node)

/-- A record enters its node's gather, which launches at 32 (R308). -/
def State.gatherRec (s : State) (dies node : Nat) (body : List Nat) : State :=
  let key := dies * 256 + node
  let nd := Tbl.get {} s.node key
  match nd.def' with
  | none => s
  | some g =>
    let cur := match nd.gathers.getLast? with
      | some x => if x.grid = g ∧ x.tmr = nd.tmr then some x else none
      | none => none
    let (old, x) : List Gather × Gather := match cur with
      | some x => (nd.gathers.dropLast, { x with recs := x.recs ++ [body] })
      | none => (nd.gathers, { grid := g, tmr := nd.tmr, first := s.time, recs := [body] })
    let full := x.recs.length = 32
    let s := { s with node := Tbl.set {} s.node key { nd with gathers := if full then old else old ++ [x] } }
    if full then s.launchGang dies node x else s

/-- COLLECT_TIMER (R308): the oldest gather whose timer has lapsed is launched. -/
def execCollectTimer (dies node : Nat) (s : State) : Host.Outcome State Fault Refusal :=
  .next (
    let key := dies * 256 + node
    let nd := Tbl.get {} s.node key
    match nd.gathers.find? fun x => decide (x.first + x.tmr ≤ s.time) with
    | some x =>
      let s := { s with node := Tbl.set {} s.node key { nd with gathers := nd.gathers.erase x } }
      s.launchGang dies node x
    | none => s)

end Sys2Proof.Machine
end

