-- ==== Sys2Proof/Machine/Splice.lean ====
section
/-!
DEFINITION. The Dovetail unit (R309 to R322): the structure of a spliceable object, the checks of a candidate pair, the spliced text and
its map, and the splice cache.
-/
namespace Sys2Proof.Machine

/-! ### The SPLICE section (R310) -/

/-- A tile entry. -/
structure SEnt where
  off : Nat
  desc : Nat
  tag : Nat
  tld : Bool
  held : Bool
  wrt : Bool
  deriving DecidableEq, Repr

/-- The section. -/
structure SSec where
  boff : Nat
  blen : Nat
  bregs : Nat
  tcpo : Nat
  itreg : Nat
  livein : Nat
  liveout : Nat
  ents : List SEnt
  deriving DecidableEq, Repr

/-- A tile entry from its word. -/
def SEnt.ofNat (w : Nat) : SEnt :=
  { off := w % 2 ^ 32, desc := bitsOf w 32 6, tag := bitsOf w 40 4, tld := w.testBit 48, held := w.testBit 49, wrt := w.testBit 50 }

/-- The section at an address; none when a read fails. -/
def State.readSplice (s : State) (cid va : Nat) : Option SSec × State :=
  match s.hwRdWords cid va 10 with
  | (none, s) => (none, s)
  | (some w, s) =>
    let g (i : Nat) : Nat := w.getD i 0
    match s.hwRdWords cid (va + 0x50) (min 64 (bitsOf (g 1) 16 8)) with
    | (none, s) => (none, s)
    | (some es, s) =>
      (some { boff := g 0 % 2 ^ 32, blen := g 0 / 2 ^ 32, bregs := bitsOf (g 1) 24 8, tcpo := bitsOf (g 1) 8 8, itreg := g 1 % 2 ^ 8
              livein := leNat ((w.drop 2).take 4 |>.flatMap (natLe 8 ·)) % 2 ^ 240
              liveout := leNat ((w.drop 6).take 4 |>.flatMap (natLe 8 ·)) % 2 ^ 240, ents := es.map SEnt.ofNat }, s)

/-! ### Structure (R309) -/

/-- A clause of a text: its offset, header and words. -/
structure SClause where
  off : Nat
  hdr : DWord
  ws : List DWord
  deriving DecidableEq, Repr

/-- The clauses of a text from an offset on; none when its words are not a row of clauses. -/
def clausesOf : Nat → Nat → List DWord → Option (List SClause)
  | _, _, [] => some []
  | 0, _, _ => none
  | fuel + 1, off, h :: t =>
    let n := hdrLen h
    if !hdrOk h || decide (t.length < n) then none
    else (clausesOf fuel (off + 8 * (n + 1)) (t.drop n)).map ({ off, hdr := h, ws := t.take n } :: ·)

/-- The control transfers of clauses, as (opcode, word, whether it is the last word). -/
def transfersOf (cs : List SClause) : List (Nat × DWord × Bool) :=
  let ws := cs.flatMap (·.ws)
  ((upto ws.length).zip ws).filterMap fun x =>
    if opTransfer (wordOp x.2) then some (wordOp x.2, x.2, x.1 + 1 == ws.length) else none

/-- The three parts of a text. -/
structure SParts where
  pro : List SClause
  body : List SClause
  epi : List SClause
  deriving DecidableEq, Repr

/-- Bytes of clauses. -/
def clauseBytes (cs : List SClause) : Nat := (cs.map fun c => 8 * (c.ws.length + 1)).sum

/-- The body's only transfer is a guarded `BRA` to the `HEAD` clause, in its last slot. -/
def bodyEnds (cs : List SClause) (boff : Nat) : Bool :=
  match transfersOf cs with
  | [(0xD1, w, true)] => w.toNat.testBit 55 && wrapN 56 (((boff + clauseBytes cs : Nat) : Int) - 8 + 8 * sextNat 22 (w.toNat / 2 ^ 24)) == boff
  | _ => false

/-- The epilogue's only transfer is an `EXIT` in its last slot. -/
def epiEnds (cs : List SClause) : Bool := match transfersOf cs with | [(0xD5, _, true)] => true | _ => false

/-- The words of a text before its entry: clauses without `HEAD` and `BODY`, and without `BRX`, `CALL`, `RET` and `RFT` (R309). -/
def beforeOk (entry : Nat) (text : List DWord) : Bool :=
  match clausesOf (text.length + 1) 0 (text.take (entry / 8)) with
  | none => false
  | some cs => cs.all fun c => !hdrBody c.hdr && !hdrHead c.hdr && c.ws.all fun w => !([0xD2, 0xD3, 0xD4, 0xE2].contains (wordOp w))

/-- The parts of a text whose structure is that of R309. -/
def partsOf (entry : Nat) (text : List DWord) (x : SSec) : Option SParts :=
  if entry % 8 ≠ 0 ∨ !beforeOk entry text then none
  else match clausesOf (text.length + 1) entry (text.drop (entry / 8)) with
    | none => none
    | some cs =>
      let pro := cs.filter fun c => c.off < x.boff
      let body := cs.filter fun c => x.boff ≤ c.off && c.off < x.boff + x.blen
      let epi := cs.filter fun c => x.boff + x.blen ≤ c.off
      if (body.head?.map (·.off)) = some x.boff ∧ clauseBytes body = x.blen ∧
          (body.all fun c => hdrBody c.hdr && hdrHead c.hdr == (c.off == x.boff)) ∧
          ((pro ++ epi).all fun c => !hdrBody c.hdr && !hdrHead c.hdr) ∧ (transfersOf pro).isEmpty ∧ bodyEnds body x.boff ∧ epiEnds epi then
        some { pro, body, epi }
      else none

/-! ### Matching (R312) -/

/-- One kernel of a pair as Dovetail sees it. -/
structure SKer where
  o : KObj
  p : Packet
  x : SSec
  text : List DWord
  parts : SParts
  deriving DecidableEq, Repr

/-- The handle that a tile entry's descriptor gives. -/
def SKer.handle (k : SKer) (e : SEnt) : Option Nat :=
  match k.o.tiles[e.desc]? with
  | some d => if d.hv then some (pkHandle k.p d.hslot).h else none
  | none => none

/-- The word of a tile entry. -/
def SKer.word (k : SKer) (e : SEnt) : Nat := (k.text.getD (e.off / 8) 0).toNat

/-- The fragment base of a tile word: D of a load, X of a store. -/
def SKer.frag (k : SKer) (e : SEnt) : Nat := bitsOf (k.word e) (if e.tld then 38 else 22) 8

/-- The word of an entry lies in the body, is the tile word it claims to be, its A field names `ITREG` and its fragment is registers. -/
def SKer.entOk (k : SKer) (e : SEnt) : Bool :=
  e.off % 8 == 0 && decide (k.x.boff ≤ e.off) && decide (e.off < k.x.boff + k.x.blen) &&
    k.word e / 2 ^ 56 == (if e.tld then 0x98 else 0x99) && bitsOf (k.word e) 30 8 == k.x.itreg && decide (k.frag e < 240)

/-- Registers of a descriptor's fragment. -/
def Tile.fragLen (d : Tile) : Nat :=
  let n := fragRegs d.shape
  if d.role = 0 then n.2.1 else if d.role = 1 then n.2.2 else n.1

/-- Two descriptors agree in all but the parameter and handle slot. -/
def Tile.same (a b : Tile) : Bool := { a with param := 0, hv := true, hslot := 0 } == { b with param := 0, hv := true, hslot := 0 }

/-- A matched pair of entries: the producer's, the consumer's, the handle, s, d and the count. -/
structure SMatch where
  st : SEnt
  ld : SEnt
  h : Nat
  s : Nat
  d : Nat
  n : Nat
  deriving DecidableEq, Repr

/-- The 8-byte parameter at an offset of a kernel's parameter block, from memory. -/
def State.param8 (s : State) (cid : Nat) (k : SKer) (i : Nat) : Option Nat × State := s.hwRd cid ((pkAddr k.p 3 + 8 * i) % 2 ^ 56) 8

/-- The stores of the producer that a load of the consumer matches, but for the parameters. -/
def storesFor (p c : SKer) (ce : SEnt) (dc : Tile) (h : Nat) : List (SEnt × Tile) :=
  p.x.ents.filterMap fun pe =>
    match p.o.tiles[pe.desc]? with
    | some dp =>
      if !pe.tld && p.handle pe == some h && dp.same dc && pe.tag == ce.tag && p.entOk pe && c.entOk ce then some (pe, dp) else none
    | none => none

/-- The one of the stores with the parameter's value that has the highest `EOFF`; the outer none is a failed read. -/
def State.bestStore (s : State) (cid : Nat) (p : SKer) (v : Nat) : List (SEnt × Tile) → Option (Option SEnt) × State
  | [] => (some none, s)
  | (pe, dp) :: rest =>
    match s.param8 cid p dp.param with
    | (none, s) => (none, s)
    | (some v', s) =>
      match s.bestStore cid p v rest with
      | (none, s) => (none, s)
      | (some b, s) =>
        (some (if v' = v then (match b with | some x => if pe.off < x.off then some x else some pe | none => some pe) else b), s)

/-- Check 4 of R311 on the consumer's entries: the matches, or the reason of a refusal. -/
def State.matchAll (s : State) (cid : Nat) (p c : SKer) : List SEnt → Except Nat (List SMatch) × State
  | [] => (.ok [], s)
  | ce :: rest =>
    let named : Option (Tile × Nat) := match c.o.tiles[ce.desc]?, c.handle ce with
      | some d, some h => if ce.tld && (pkHandles p.p).any (fun a => a.w && a.h == h) then some (d, h) else none
      | _, _ => none
    match named with
    | none => s.matchAll cid p c rest
    | some (dc, h) =>
      match s.param8 cid c dc.param with
      | (none, s) => (.error 13, s)
      | (some v, s) =>
        match s.bestStore cid p v (storesFor p c ce dc h) with
        | (none, s) => (.error 13, s)
        | (some none, s) => (.error 4, s)
        | (some (some pe), s) =>
          match s.matchAll cid p c rest with
          | (.error e, s) => (.error e, s)
          | (.ok ms, s) => (.ok ({ st := pe, ld := ce, h, s := p.frag pe, d := c.frag ce, n := dc.fragLen } :: ms), s)

/-! ### Occupancy and live registers (R313, R314) -/

/-- The occupancy of a pair, in gangs per core. -/
def occupancy (t regs spad : Nat) : Nat :=
  let g := (4 * ((t + 3) / 4) + 31) / 32
  let b := min (min 64 (64 / g)) (min (4096 / (g * regs)) (if spad = 0 then 64 else 393216 / spad))
  (t + 31) / 32 * max b 1

/-- A live-out conflict. -/
def conflict (p : SKer) (ms : List SMatch) : Bool :=
  ms.any fun m => !m.st.held || (m.ld.wrt && (upto m.n).any fun i => (p.x.livein ||| p.x.liveout).testBit (m.s + i))

/-! ### The spliced text (R315, R320) -/

/-- `NOP`. -/
def nopWord : DWord := .ofNat 64 (0xD0 * 2 ^ 56)

/-- A field of a word replaced. -/
def putField (w lo n x : Nat) : Nat := w - bitsOf w lo n * 2 ^ lo + x % 2 ^ n * 2 ^ lo

/-- The place of an operand field in a word, by its number. -/
def fieldAt : Nat → Nat
  | 0 => 38 | 1 => 30 | 3 => 14 | 5 => 46 | _ => 22

/-- The register that stands for a consumer's register. -/
def renReg (rp : Nat) (ms : List SMatch) (n : Nat) : Nat :=
  match ms.find? fun m => decide (m.d ≤ n) && decide (n < m.d + m.n) with
  | some m => m.s + (n - m.d)
  | none => n + rp

/-- A word of the consumer with its register operands renumbered. -/
def renWord (rp : Nat) (ms : List SMatch) (w : DWord) : DWord :=
  match decodeWord w with
  | .error _ => w
  | .ok i => match i.core with
    | none => w
    | some (op, b) =>
      .ofNat 64 ((b.uses op).foldl (fun w u =>
        let lo := fieldAt u.1
        let n := bitsOf w lo 8
        if u.2.1 = .unused ∨ 240 ≤ n then w else putField w lo 8 (renReg rp ms n)) w.toNat)

/-- `BR` cleared. -/
def clearBr (h : DWord) : DWord := .ofNat 64 (putField h.toNat 26 1 0)

/-- The words of clauses, each with its offset. -/
def listWords (cs : List SClause) : List (Nat × DWord) :=
  cs.flatMap fun c => ((upto (c.ws.length + 1)).zip (c.hdr :: c.ws)).map fun x => (c.off + 8 * x.1, x.2)

/-- The last clause's header offset and last word offset. -/
def lastOf (cs : List SClause) : Nat × Nat :=
  match cs.getLast? with | some c => (c.off, c.off + 8 * c.ws.length) | none => (0, 0)

/-- The producer's words of a part, changed. -/
def prodWords (p : SKer) (elided : List Nat) (cs : List SClause) : List (Nat × DWord × DWord) :=
  let ends := [lastOf p.parts.body, lastOf p.parts.epi]
  (listWords cs).map fun x => (x.1, x.2,
    if elided.contains x.1 ∨ ends.any (fun e => e.2 == x.1) then nopWord
    else if ends.any fun e => e.1 == x.1 then clearBr x.2 else x.2)

/-- The consumer's words of a part, changed but for the end of its body. -/
def consWords (rp : Nat) (ms : List SMatch) (cs : List SClause) : List (Nat × DWord × DWord) :=
  let hdrs := cs.map (·.off)
  (listWords cs).map fun x => (x.1, x.2,
    if hdrs.contains x.1 then x.2 else if ms.any fun m => m.ld.off == x.1 then nopWord else renWord rp ms x.2)

/-- The spliced text: origin, offset in its own text, original word and word. -/
def splicedText (p c : SKer) (ms : List SMatch) (elided : List Nat) : List (Bool × Nat × DWord × DWord) :=
  let pw (cs : List SClause) := (prodWords p elided cs).map fun x => (false, x)
  let cw (cs : List SClause) := (consWords p.o.regs ms cs).map fun x => (true, x)
  let head := pw p.parts.pro ++ cw c.parts.pro
  let upToBody := head ++ pw p.parts.body
  let cb := cw c.parts.body
  let at' := upToBody.length + (cb.length - 1)
  let back : Int := (head.length : Int) - (at' : Int)
  let cb := cb.dropLast ++ (cb.drop (cb.length - 1)).map fun x =>
    (x.1, x.2.1, x.2.2.1, .ofNat 64 (putField x.2.2.2.toNat 24 22 (wrapN 22 back)))
  upToBody ++ cb ++ pw p.parts.epi ++ cw c.parts.epi

/-! ### The splice cache (R317) -/

/-- Bytes of a CP's splice cache. -/
def spliceCap : Nat := 512 * 1024

/-- The entries of a CP, by address. -/
def State.cacheOf (s : State) (die : Nat) : List SplE :=
  sortBy (·.base) (s.splices.filter fun e => (e.base - spliceVa) / 2 ^ 32 == die)

/-- The first offset at which a range is free among entries in the order of their addresses. -/
def gapFor (n : Nat) : Nat → List SplE → Option Nat
  | at', [] => if at' + n ≤ spliceCap then some at' else none
  | at', e :: es =>
    let o := (e.base - spliceVa) % 2 ^ 32
    if at' + n ≤ o then some at' else gapFor n (max at' (o + 8 * e.text.length)) es

/-- Unpinned entries are discarded, the oldest first, until a range is free; none when the pinned ones leave none. -/
def State.makeRoom (s : State) (die n : Nat) : Nat → Option (Nat × State)
  | 0 => none
  | fuel + 1 =>
    match gapFor n 0 (s.cacheOf die) with
    | some o => some (o, s)
    | none =>
      match sortBy (·.id) ((s.cacheOf die).filter (·.pins == 0)) with
      | e :: _ => { s with splices := s.splices.filter (·.id != e.id) }.makeRoom die n fuel
      | [] => none

/-- Every page of an address space that is tagged with a handle is Mapped (R318); handle 0 tags none (R262). -/
def State.allMapped (s : State) (asid h : Nat) : Bool :=
  h == 0 || s.held.all fun x => x.1 / 2 ^ 40 != asid || x.2.handle != h || x.2.st == 1

/-- A forwarded handle's stores are elided: producer W and T, consumer R and T and not W, every tagged page Mapped. -/
def State.elides (s : State) (asid : Nat) (p c : Packet) (h : Nat) : Bool :=
  (pkHandles p).any (fun a => a.h == h && a.w && a.t) && (pkHandles c).any (fun a => a.h == h && a.r && a.t) &&
    !(pkHandles c).any (fun a => a.h == h && a.w) && s.allMapped asid h

/-- The pages tagged with a handle enter Vacated. -/
def State.vacate (s : State) (asid h : Nat) : State :=
  { s with held := s.held.map fun x => (x.1, if x.1 / 2 ^ 40 = asid ∧ h ≠ 0 ∧ x.2.handle = h ∧ x.2.st = 1 then { x.2 with st := 6 } else x.2) }

/-! ### The attempt (R311) -/

/-- A kernel with its section, text and parts; none when it has no section or a read fails or its structure refuses, with the reason. -/
def State.spliceKer (s : State) (cid : Nat) (o : KObj) (p : Packet) : Except Nat SKer × State :=
  match o.splice with
  | none => (.error 1, s)
  | some (va, _) =>
    match s.readSplice cid va with
    | (none, s) => (.error 13, s)
    | (some x, s) =>
      match s.hwRdWords cid o.text (o.textLen / 8) with
      | (none, s) => (.error 13, s)
      | (some ws, s) =>
        let text := ws.map (BitVec.ofNat 64 ·)
        match partsOf o.entry text x with
        | some parts => if o.regs < x.bregs then (.error 11, s) else (.ok { o, p, x, text, parts }, s)
        | none => (.error 11, s)

/-- What an accepted splice gives: the entry, the elided handles, and the state with the entry in the cache. -/
structure Spliced where
  e : SplE
  elided : List Nat
  deriving DecidableEq, Repr

/-- Consumer's least gangs (R311, order 8). -/
def minGangs (k : SKer) : Nat := let m := bitsOf (pkWord k.p 0) 16 7; if m = 0 then k.o.ming else m

/-- The entry of a pair at an offset of the CP's cache. -/
def spliceEntry (cid die off id : Nat) (p c : SKer) (ms : List SMatch) (tx : List (Bool × Nat × DWord × DWord)) : SplE :=
  let base := spliceVa + 2 ^ 32 * die + off
  { id, cid, base, codeP := p.o.va, codeC := c.o.va, pair := id, text := tx.map (·.2.2.2)
    map := ((upto tx.length).zip tx).map fun x =>
      { addr := base + 8 * x.1, c := x.2.1, ch := x.2.2.2.1 != x.2.2.2.2, kid := if x.2.1 then c.o.kid else p.o.kid
        opc := ((if x.2.1 then c.o.text else p.o.text) + x.2.2.1) % 2 ^ 56 }
    rp := p.o.regs, rc := c.o.regs, sp := p.o.spad, sc := c.o.spad, kidP := p.o.kid, kidC := c.o.kid, entry := base
    frags := ms.map fun m => (m.s, m.d, m.n), tilesC := c.o.tiles, pins := 0, valid := true
    tags := ((pkHandles p.p ++ pkHandles c.p).map (·.h)).eraseDups }

/-- Checks 5 to 10 of R311 on a matched pair, in the order of the table. -/
def State.spliceFit (s : State) (cid die : Nat) (p c : SKer) (ms : List SMatch) : Except Nat Spliced × State :=
  let asid := (s.cx cid).asid
  let elided := ((ms.map (·.h)).eraseDups).filter fun h => s.elides asid p.p c.p h
  let tx := splicedText p c ms ((ms.filter fun m => elided.contains m.h).map (·.st.off))
  let old := s.splices.find? fun e => e.valid && e.cid == cid && e.codeP == p.o.va && e.codeC == c.o.va && e.rp == p.o.regs &&
    e.sp == p.o.spad && e.text == tx.map (·.2.2.2) && (e.base - spliceVa) / 2 ^ 32 == die
  let id := maxOf (s.splices.map (·.id)) + 1
  let got : Option (SplE × State) := match old with
    | some e => some ({ e with tags := (e.tags ++ ((pkHandles p.p ++ pkHandles c.p).map (·.h))).eraseDups }, s)
    | none => (s.makeRoom die (8 * tx.length) (s.splices.length + 1)).map fun x => (spliceEntry cid die x.1 id p c ms tx, x.2)
  match got with
  | none => (.error 8, s)
  | some (e, s1) =>
    if 240 < p.o.regs + c.o.regs then (.error 6, s)
    else if 393216 < p.o.spad + c.o.spad then (.error 10, s)
    else if occupancy (p.o.bdx * p.o.bdy * p.o.bdz) (p.o.regs + c.o.regs) (p.o.spad + c.o.spad) < minGangs c then (.error 7, s)
    else if conflict p ms then (.error 9, s)
    else if spliceVa ≤ p.o.va ∨ spliceVa ≤ c.o.va then (.error 12, s)
    else
      (.ok { e, elided }, { s1 with splices := s1.splices.filter (·.id != e.id) ++ [e] })

/-- The beginning of a spliced pair, at one place in the order: its entry is pinned (R317), and the pages of elided handles enter Vacated (R318). -/
def State.spliceBegin (s : State) (cid : Nat) (x : Spliced) : State :=
  x.elided.foldl (fun s h => s.vacate (s.cx cid).asid h)
    { s with splices := s.splices.map fun e => if e.id = x.e.id then { e with pins := e.pins + 1 } else e }

/-- Dovetail's checks on a candidate pair, in the order of R311: the splice, or the reason of its refusal. -/
def State.spliceTry (s : State) (cid die : Nat) (po co : KObj) (pp cp : Packet) : Except Nat Spliced × State :=
  if po.splice.isNone ∨ co.splice.isNone then (.error 1, s)
  else match s.spliceKer cid po pp with
    | (.error e, s) => (.error e, s)
    | (.ok p, s) =>
      match s.spliceKer cid co cp with
      | (.error e, s) => (.error e, s)
      | (.ok c, s) =>
        if (po.bdx, po.bdy, po.bdz, po.csize) ≠ (co.bdx, co.bdy, co.bdz, co.csize) ∨ pkGrid pp ≠ pkGrid cp then (.error 2, s)
        else if p.x.tcpo ≠ c.x.tcpo then (.error 3, s)
        else match s.param8 cid p p.x.tcpo with
          | (none, s) => (.error 13, s)
          | (some a, s) =>
            match s.param8 cid c c.x.tcpo with
            | (none, s) => (.error 13, s)
            | (some b, s) =>
              if a ≠ b then (.error 3, s)
              else match s.matchAll cid p c c.x.ents with
                | (.error e, s) => (.error e, s)
                | (.ok ms, s) => s.spliceFit cid die p c ms

/-- The grid of a spliced pair (R315): the producer's, with both allocations and both snapshots. -/
def Spliced.grid (x : Spliced) (p c : Grid) : Grid :=
  { p with regs := p.regs + c.regs, spad := p.spad + c.spad, cparams := (p.spad, c.params), spl := some x.e.id, entry := x.e.entry
           text := x.e.base, textLen := 8 * x.e.text.length, pair := some c.idx, splok := true }

end Sys2Proof.Machine
end

