-- ==== Sys2Proof/Machine/Queue.lean ====
section
/-!
DEFINITION. Queues and command processors (R45 to R66): commands, mapping, the beginning of packets, and the packets of this chapter, with
LAUNCH (R303, R311) and COLLECT (R307).
-/
namespace Sys2Proof.Machine

/-! ### Commands of `QCMD` (R48) -/

/-- A DISABLE of the queue is in progress. -/
def State.disabling (s : State) (q : Nat) : Bool := s.agenda.contains (.event (.queueUnmap q true))

/-- The status of the last command. -/
def State.qcmdEnd (s : State) (st : Nat) : State := { s with pkg := { s.pkg with qcmdStat := st } }

/-- The address of `QCMD`. -/
def qcmdAddr : Nat := hbmTop + 0x28

/-- A write of `QCMD` from HS or M mode; BUSY while an earlier command for the queue is in progress. -/
def State.qcmd (s : State) (who : Who) (q : Nat) (act : State → State) : State :=
  if !whoHsm who then s.dropWrite who qcmdAddr
  else if s.disabling q then s.qcmdEnd 1
  else act s

/-- QUEUE_ENABLE (R48). -/
def execQueueEnable (who : Who) (q : Nat) (s : State) : Host.Outcome State Fault Refusal :=
  .next (s.qcmd who (q % 4096) fun s =>
    let q := q % 4096
    let h := s.qv q
    let st := (s.cx h.cid).state
    if h.qst ≠ 0 then s.qcmdEnd 0
    else if 2 ≤ st ∧ st ≤ 6 then (s.qput q { h with qst := 1, since := s.time }).qcmdEnd 0
    else s.qcmdEnd 2)

/-- QUEUE_DISABLE (R48): a queue that a CP thread holds begins to be unmapped (R60, step 1), and the status is BUSY until its unmapping disables it. -/
def execQueueDisable (who : Who) (q : Nat) (s : State) : Host.Outcome State Fault Refusal :=
  .next (s.qcmd who (q % 4096) fun s =>
    let q := q % 4096
    let h := s.qv q
    if h.qst = 5 then s.qcmdEnd 2
    else if h.qst = 0 then s.qcmdEnd 0
    else if h.qst = 1 then (s.qput q { h with qst := 0 }).qcmdEnd 0
    else
      let s := s.qput q { h with qst := 4 }
      ({ s with agenda := s.agenda ++ [Move.event (.queueUnmap q true)] } : State).qcmdEnd 1)

/-! ### Resets (R67 to R69) -/

/-- The address of `RSTCTL`. -/
def rstctlAddr : Nat := hbmTop + 0x18

/-- The doorbells latched during a reset act once it is over (R69): the read index stands where the reset left the write index. -/
def State.unlatch (s : State) : State :=
  s.pkg.latched.foldl (fun s x => let h := s.qv x.1
    if h.ridx = h.widx then s.qput x.1 { h with ridx := x.2.getD h.ridx } else s) { s with pkg := { s.pkg with latched := [] } }

/-- A write of `RSTCTL` by HS or M mode or the management controller (R67 to R69): a bad target resets nothing; else the reset begins, and `RSTAT` is 1
until the next execution of its step, `i`, which has its effects.  A write while another reset is in progress is ignored, or refused by a reset of
rung 6. -/
def State.rstctl (s : State) (who : Who) (rung tgt : Nat) (i : Instr) (bad : Bool) (act : State → State) : State :=
  if !whoAdmin who then s.dropWrite who rstctlAddr
  else match s.pkg.reset with
    | some r =>
      if r = (rung, tgt) then
        let s := act s
        ({ s with pkg := { s.pkg with rstat := 0, reset := none } }).unlatch
      else if r.1 = 6 then { s with pkg := { s.pkg with rstat := 3 } }
      else s
    | none =>
      if bad then { s with pkg := { s.pkg with rstat := 2 } }
      else { s with pkg := { s.pkg with rstat := 1, reset := some (rung, tgt) }, agenda := s.agenda ++ [Move.event i] }

/-- RESET_QUEUE (R69): through `QCMD` or through `RSTCTL`. -/
def execResetQueue (who : Who) (qcmd : Bool) (q : Nat) (s : State) : Host.Outcome State Fault Refusal :=
  .next (
    if qcmd then s.qcmd who (q % 4096) fun s => (s.resetQueue (q % 4096)).qcmdEnd 0
    else s.rstctl who 1 q (.resetQueue who qcmd q) (4096 ≤ q) fun s => s.resetQueue q)

/-- RESET_ENGINE (R69): bit 4 of the target chooses a Truss engine or a CP. -/
def execResetEngine (who : Who) (tgt : Nat) (s : State) : Host.Outcome State Fault Refusal :=
  .next (s.rstctl who 2 tgt (.resetEngine who tgt) (32 ≤ tgt || (tgt < 16 && decide (4 ≤ tgt))) fun s =>
    if tgt < 16 then s.resetCp tgt else s.resetEngine (tgt - 16))

/-- The die masks of the layout (R19). -/
def layoutOf : Nat → List Nat
  | 0 => [1, 2, 4, 8]
  | 1 => [3, 12]
  | 2 => [3, 4, 8]
  | 3 => [1, 2, 12]
  | _ => [15]

/-- The partitions of the package. -/
def State.layout (s : State) : List Nat := layoutOf s.pkg.pmode

/-- RESET_PARTITION (R69). -/
def execResetPartition (who : Who) (tgt : Nat) (s : State) : Host.Outcome State Fault Refusal :=
  .next (s.rstctl who 3 tgt (.resetPartition who tgt) (!s.layout.contains tgt) fun s => s.reclaim tgt 5)

/-- RESET_DIE (R69): the partition that includes the die. -/
def execResetDie (who : Who) (tgt : Nat) (s : State) : Host.Outcome State Fault Refusal :=
  .next (s.rstctl who 4 tgt (.resetDie who tgt) (4 ≤ tgt) fun s => (s.layout.filter fun m => inMask m tgt).foldl (fun s m => s.reclaim m 5) s)

/-! ### Doorbells and ingress (R47, R65, R66) -/

/-- DOORBELL_WRITE (R47). -/
def execDoorbellWrite (_who : Who) (q : Nat) (val : DWord) (s : State) : Host.Outcome State Fault Refusal :=
  .next (s.doorbell (q % 4096) (val.toNat % 2 ^ 32))

/-- INGRESS_KEY_WRITE (R65): word `n` of the key of the queue that `ING_KSEL` names. -/
def execIngressKeyWrite (who : Who) (n : Nat) (val : DWord) (s : State) : Host.Outcome State Fault Refusal :=
  .next (
    if !whoHsm who ∨ 4 ≤ n then s.dropWrite who (hbmTop + 0xB0 + 8 * n)
    else
      let k := Tbl.get [0, 0, 0, 0] s.pkg.ingKeys s.pkg.ingKsel
      { s with pkg := { s.pkg with ingKeys := Tbl.set [0, 0, 0, 0] s.pkg.ingKeys s.pkg.ingKsel (k.set n val) } })

/-- A read-clear counter of 32 bits counts and saturates (R66). -/
def sat32 (n : Nat) : Nat := min (n + 1) (2 ^ 32 - 1)

/-- The plaintext packets of a frame enter the ring. -/
def State.putRing (s : State) (q cid : Nat) : Nat → List (List Byte) → Option State
  | _, [] => some s
  | i, b :: bs =>
    match s.hwWriteRun cid (s.ringVa q i) (chunksOf 8 8 b) with
    | some s => s.putRing q cid (i + 1) bs
    | none => none

/-- An accepted frame; an `ISQ` of 2^63 or above leaves its low 63 bits in `ISEQ` (log 85): the ring writes, `ISEQ`, and the doorbell's effect; a ring that fails faults the queue (R46). -/
def State.frameIn (s : State) (q isq n : Nat) (text : List Byte) : State :=
  let h := s.qv q
  match s.putRing q h.cid h.widx (chunksOf 64 n text) with
  | none => s.qfault q qAccess
  | some s =>
    let d := s.qdesc q + 0x38
    (s.wrN d 8 (s.rd d 8 / 2 ^ 63 * 2 ^ 63 + isq % 2 ^ 63)).doorbell q ((h.widx + n) % 2 ^ 32)

/-- A move that checks a frame of a queue again. -/
def Move.isIngress (q : Nat) : Move → Bool
  | .ingress k _ => k == q
  | _ => false

/-- The record that a frame for a queue waits for (R208, R264): that for which an earlier one waits, or one of the pages of the ring slots that it
writes. -/
def State.frameWaits (s : State) (q n : Nat) : Option Nat :=
  match s.held.find? fun x => x.2.waits.any (·.isIngress q) with
  | some x => some x.1
  | none => (upto n).findSome? fun i => s.hwWaits (s.qv q).cid (s.ringVa q ((s.qv q).widx + i))

/-- The checks of a command frame (R66), in their order; a frame whose ring migrates is checked once the frame switch is over, whole and in its turn. -/
def State.commandIn (s : State) (bytes : List Byte) : State :=
  let n := (bytes.length - 32) / 64
  let q := leNat ((bytes.drop 4).take 4) % 4096
  let isq := leNat ((bytes.drop 8).take 8)
  let h := s.qv q
  let ctl := s.rd (s.qdesc q + 0x38) 8
  if bytes.length ≠ 32 + 64 * n ∨ n < 1 ∨ 16 < n ∨ leNat (bytes.take 1) ≠ 1 then
    { s with pkg := { s.pkg with badfmt := sat32 s.pkg.badfmt } }
  else if let some key := s.frameWaits q n then s.lateAt key (.ingress q bytes)
  else if h.qst = 0 ∨ h.qst = 5 ∨ !ctl.testBit 63 then { s with pkg := { s.pkg with noq := sat32 s.pkg.noq } }
  else
    let nonce := (bytes.drop 4).take 4 ++ (bytes.drop 8).take 8
    match Config.gcmOpen (Tbl.get [0, 0, 0, 0] s.pkg.ingKeys q) nonce (bytes.take 16) ((bytes.drop 16).take (64 * n))
        (bytes.drop (16 + 64 * n)) with
    | none => { s with pkg := { s.pkg with badtag := sat32 s.pkg.badtag } }
    | some text =>
      if isq ≤ ctl % 2 ^ 63 then { s with pkg := { s.pkg with replay := sat32 s.pkg.replay } }
      else if 2 ^ s.qsz q < ahead h.widx h.ridx + n then { s with pkg := { s.pkg with full := sat32 s.pkg.full } }
      else s.frameIn q isq n text

/-- COMMAND_FRAME (R65, R66, R368): a datagram to `INGPORT` that MACsec lets pass; another is no command frame. -/
def execCommandFrame (frame : Datagram) (s : State) : Host.Outcome State Fault Refusal :=
  .next (match s.ethIn frame.wire with
    | (s, true) => if frame.wire.udp = s.pkg.ingport then s.commandIn frame.bytes else s
    | (s, false) => s)

/-! ### WAIT (R55) -/

/-- What a read of a signal gives. -/
inductive SigRead where
  | val (loc x : Nat)
  /-- At another device: the value comes with a response. -/
  | fabric (gdn pa : Nat)
  | fail

/-- A CP's read of a signal word; one that fails leaves a record (R258). -/
def State.sigRead (s : State) (q cid addr : Nat) : SigRead × State :=
  match s.cpAcs q cid addr true false with
  | (some (.loc n), s) => (.val n (s.rd n 8), s)
  | (some (.fab g pa), s) => (.fabric g pa, s)
  | (_, s) => (.fail, s)

/-- A blocked WAIT is released: its flag edge, whose producer is the last writer of the word, is adopted by the CP thread (R398). -/
def State.waitDone (s : State) (q : Nat) : State :=
  let h := s.qv q
  let mark := (Tbl.get {} s.watch q).edge
  let (id, s) := s.newEdge h.die h.cid
    { kind := 2, waiter := cpLid h.die h.thr, prod := if mark / 2 ^ 48 = 0 then noLid else mark / 2 ^ 48 - 1, obj := h.wakea
      pred := mark % 2 ^ 48, tag := (Tbl.get {} s.watch q).tag }
  { s with watch := Tbl.set {} s.watch q {} }.qput q { h with qst := 2, wakea := 0, edge := id }

/-- The read of a WAIT's signal at another device is outstanding. -/
def State.waitOut (s : State) (q : Nat) : Bool :=
  s.fab.out.any fun r => r.owner == .cp q && r.pk.kind == 0 && r.va == (s.qv q).wakea

/-- A pending WAIT reads its signal: it is released, or its thread is Blocked with the watch armed.  A signal at another device is read over
the fabric, by one request at a time, and its watch stands at that device's home slice.  The WAIT has begun, so a read that fails faults its queue at
the next index (log 86).  It reads after the signal updates of its thread that wait (R208, R219). -/
def State.waitRead (s : State) (q : Nat) : State :=
  let h := s.qv q
  if s.sigWaits q then
    let w : Watch := Tbl.get {} s.watch q
    ({ s with watch := Tbl.set {} s.watch q { w with armed := false } }).qput q
      { h with qst := 3, since := if h.qst = 3 then h.since else s.time }
  else match s.sigRead q h.cid h.wakea with
  | (.val loc x, s) =>
    if h.wakev ≤ x then s.waitDone q
    else
      let w := Tbl.get {} s.watch q
      ({ s with watch := Tbl.set {} s.watch q { w with armed := true, loc, hit := false } }).qput q
        { h with qst := 3, since := if h.qst = 3 then h.since else s.time }
  | (.fabric g pa, s) =>
    let s := if s.waitOut q then s else ((s.request (.cp q) 0 g 3 0 pa h.edge [] h.wakea).map (·.2)).getD s
    let w : Watch := Tbl.get {} s.watch q
    ({ s with watch := Tbl.set {} s.watch q { armed := true, loc := pa, far := some g, tag := w.tag } }).qput q
      { h with qst := 3, since := if h.qst = 3 then h.since else s.time }
  | (.fail, s) => s.qfault q qAccess

/-- WATCH_WAKE (R55, R60): the thread reads again; a wake for a queue that no thread serves is latched in `WP`.  The step is itself the wake of a watch
that stands at another device. -/
def execWatchWake (q : Nat) (s : State) : Host.Outcome State Fault Refusal :=
  .next (
    let h := s.qv q
    let w := Tbl.get {} s.watch q
    if h.mapped ∧ h.qst = 3 ∧ (w.hit ∨ !w.armed ∨ w.far.isSome) then s.waitRead q
    else if (w.hit ∨ w.far.isSome) ∧ h.wakea ≠ 0 then
      ({ s with watch := Tbl.set {} s.watch q { w with hit := false } }).qput q { h with wp := true }
    else s)

/-! ### Mapping and unmapping (R58 to R60) -/

/-- A queue is a candidate for mapping on a die (R58); none while a reset of rung 3 or above affects its context (R69). -/
def State.candidate (s : State) (die q : Nat) : Bool :=
  let h := s.qv q
  !h.mapped && h.qst == 1 && !s.resetHits h.cid && inMask (s.cx h.cid).dies die && (h.widx != h.ridx || h.wp || (Tbl.get {} s.watch q).hit)

/-- The better of two candidates: class, then `WP`, then the longer wait, then the lower number. -/
def State.betterQ (s : State) (a b : Nat) : Nat :=
  let x := s.qv a
  let y := s.qv b
  if x.pcls < y.pcls ∨ (x.pcls = y.pcls ∧ ((!x.wp ∧ y.wp) ∨ (x.wp = y.wp ∧ y.since < x.since))) then b else a

/-- The candidate that a free slot of a CP goes to. -/
def State.bestCandidate (s : State) (die : Nat) : Option Nat :=
  match (upto 4096).filter (s.candidate die) with
  | [] => none
  | q :: qs => some (qs.foldl s.betterQ q)

/-- A thread slot of a CP is free. -/
def State.slotFree (s : State) (die thr : Nat) : Bool :=
  decide (die < 4) && decide (thr < 32) && !(s.q.any fun x => x.2.mapped && x.2.die == die && x.2.thr == thr)

/-- QUEUE_MAP (R59). -/
def execQueueMap (q die thr : Nat) (s : State) : Host.Outcome State Fault Refusal :=
  .next (
    if s.slotFree die thr ∧ s.bestCandidate die = some q then
      let h := s.qv q
      let s := s.qput q { h with mapped := true, die, thr, wp := false, qst := 2, since := s.time, edge := s.rootEdge die }
      let s := s.wrN (s.qdesc q + 0x30) 8 (({ h with die, thr, wp := false, qst := 2 } : QHeld).words.getD 5 0)
      if h.wakea ≠ 0 then s.waitRead q else s
    else s)

/-- No thread slot of the partition's CPs is free. -/
def State.noSlot (s : State) (dies : Nat) : Bool := (maskDies dies).all fun d => (upto 32).all fun t => !s.slotFree d t

/-- The queues that may be unmapped for a candidate, in the order of R58. -/
def State.victims (s : State) (dies cls : Nat) : List Nat :=
  let ms := (s.mappedOn dies).filter fun q => (s.qv q).pcls ≤ cls
  let old (q : Nat) : Bool := decide ((s.qv q).since + 20000 ≤ s.time)
  let l1 := ms.filter fun q => (s.qv q).qst == 3 && old q
  let l2 := ms.filter fun q => let h := s.qv q; h.qst == 2 && h.widx == h.ridx && old q
  let l3 := ms.filter fun q => let h := s.qv q; decide (h.pcls < cls) && (h.qst == 2 || h.qst == 3)
  if !l1.isEmpty then l1 else if !l2.isEmpty then l2 else l3

/-- The unmapping of a queue for a waiting candidate is due. -/
def State.mayEvict (s : State) (q : Nat) : Bool :=
  let h := s.qv q
  let dies := (s.cx h.cid).dies
  s.noSlot dies && (maskDies dies).any fun d => match s.bestCandidate d with
    | some c => (s.victims dies (s.qv c).pcls).contains q
    | none => false

/-- Steps 3 to 5 of R60; a wake that has come is latched, and a DISABLE is then complete (R48). -/
def State.unmapEnd (s : State) (q : Nat) (disable : Bool) : State :=
  let s := s.unload q
  let h := s.qv q
  let w := Tbl.get {} s.watch q
  let s : State := { s with watch := Tbl.set {} s.watch q { w with hit := false } }
  let s := s.qput q { h with mapped := false, qst := if disable then 0 else 1, since := s.time, wp := h.wp || w.hit }
  if disable then s.qcmdEnd 0 else s

/-- QUEUE_UNMAP (R60): step 1, when a candidate waits for the slot; or steps 2 to 5 of an unmapping that has begun. -/
def execQueueUnmap (q : Nat) (disable : Bool) (s : State) : Host.Outcome State Fault Refusal :=
  .next (
    let h := s.qv q
    if h.mapped ∧ h.qst = 4 then s.unmapEnd q (disable || s.disabling q)
    else if disable ∧ h.qst = 1 then (s.qput q { h with qst := 0 }).qcmdEnd 0
    else if !disable ∧ h.mapped ∧ s.mayEvict q then
      let s := s.qput q { h with qst := 4 }
      { s with agenda := s.agenda ++ [.event (.queueUnmap q false)] }
    else s)

/-! ### The beginning of a packet (R49 to R51, R56) -/

/-- The read index moves past a packet, in the CP thread and in the ring status block (R46). -/
def State.advance (s : State) (q n : Nat) : Option State :=
  let h := s.qv q
  let r := (h.ridx + n) % 2 ^ 32
  (s.qput q { h with ridx := r, since := if r = h.widx then s.time else h.since }).ringStatus q 0 r

/-- A field of the header word is outside its range (R50). -/
def badHeader (p : Packet) : Bool :=
  pkCop p == 3 || (pkCsig p && (pkSig p % 8 != 0 || [2, 3, 7, 8].contains (pkType p)))

/-- The queue that the arbiter lets begin a packet next, among those of a partition and this one (R56). -/
def State.arbPacket (s : State) (q dies : Nat) : State × Bool :=
  let cand := s.mappedOn dies
  let ready := cand.filter fun k => k == q || s.pktReady k
  let blocks := (s.grid.filter fun x => x.2.live && !x.2.saved && decide (x.2.next < x.2.total)).map (·.2.q)
  match s.arbitrate dies cand ready (ready ++ blocks) with
  | some (w, t) => if w = q then (t, true) else (s, false)
  | none => (s, false)

/-- What a packet's own rules come to: a queue fault, or its effect once the read index has moved past `n` slots. -/
abbrev Begun := Except Nat (Nat × (State → State)) × State

/-- A packet begins by its own rules: the read index, then the effect. -/
def State.beginOwn (s : State) (q : Nat) (own : State → Nat → Nat → Begun) : State :=
  let h := s.qv q
  match own s h.cid h.ridx with
  | (.error code, s) => s.qfault q code
  | (.ok (n, act), s) =>
    match s.advance q n with
    | some s => act s
    | none => s.qfault q qAccess

/-- The packet at the read index of a queue begins, when its orderings are met and the arbiter serves its queue: common checks, the
packet's own, the read index, the effect. -/
def State.beginPkt (s : State) (q : Nat) (p : Packet) (own : State → Nat → Nat → Begun) : State :=
  let h := s.qv q
  let c := s.cx h.cid
  if !s.standsAt q (pkSlots p) then s
  else if c.state < 3 ∨ 6 < c.state then s.qfault q qNoctx
  else if !s.ordOk q p then s
  else match s.arbPacket q c.dies with
    | (s, false) => s
    | (s, true) =>
      if badHeader p then s.qfault q qBadfield
      else
        match if pkCsig p then s.cpAcs q h.cid (pkSig p) true true else (some (.loc 0), s) with
        | (none, s) => s.qfault q qAccess
        | (some _, s) => s.beginOwn q own

/-- A packet that completes at once after beginning. -/
def atOnce (q cid idx : Nat) (p : Packet) (act : State → State) : Nat × (State → State) :=
  (pkSlots p, fun s => ((act s).pkSignal (outPkt q idx cid p true)).dropPkt q idx)

/-- The packet at the read index of a queue as an instruction; the state when there is none, or when it cannot be read or has no type. -/
def State.fetchPacket (s : State) (q : Nat) : Except State Instr :=
  if !s.standsAt q 1 then .error s
  else match s.readPacket q (s.qv q).ridx with
    | (none, s) =>
      let st := (s.cx (s.qv q).cid).state
      .error (s.qfault q (if st < 3 ∨ 6 < st then qNoctx else qAccess))
    | (some p, s) => match decodePacket q p with
      | some i => .ok i
      | none => .error (s.beginPkt q p fun s _ _ => (.error qBadtype, s))

/-- NOP_PACKET (R52). -/
def execNopPacket (q : Nat) (p : Packet) (s : State) : Host.Outcome State Fault Refusal :=
  .next (s.beginPkt q p fun s cid idx => (.ok (atOnce q cid idx p fun s => s), s))

/-- A WAIT is in hand: its address, value and tag, and its read. -/
def State.waitBegin (s : State) (q : Nat) (p : Packet) : State :=
  let w : Watch := Tbl.get {} s.watch q
  (({ s with watch := Tbl.set {} s.watch q { w with tag := pkTag p } } : State).qput q
    { s.qv q with wakea := pkAddr p 1, wakev := pkWord p 2 }).waitRead q

/-- WAIT_PACKET (R55). -/
def execWaitPacket (q : Nat) (p : Packet) (s : State) : Host.Outcome State Fault Refusal :=
  .next (s.beginPkt q p fun s cid _ =>
    if pkAddr p 1 % 8 ≠ 0 then (.error qBadfield, s)
    else match s.sigRead q cid (pkAddr p 1) with
      | (.fail, s) => (.error qAccess, s)
      | (.val _ x, s) => (.ok (1, fun s =>
          if pkWord p 2 ≤ x then s else s.waitBegin q p), s)
      | (.fabric _ _, s) => (.ok (1, fun s => s.waitBegin q p), s))

/-- SIGNAL (R52). -/
def execSignal (q : Nat) (p : Packet) (s : State) : Host.Outcome State Fault Refusal :=
  .next (s.beginPkt q p fun s cid idx =>
    let op := bitsOf (pkWord p 0) 16 2
    if op = 3 ∨ pkAddr p 1 % 8 ≠ 0 then (.error qBadfield, s)
    else match s.cpAcs q cid (pkAddr p 1) true true with
      | (some _, s) =>
        (.ok (atOnce q cid idx p fun s => s.signal q cid (pkAddr p 1) op (.ofNat 64 (pkWord p 2))), s)
      | (none, s) => (.error qAccess, s))

/-- The transfer of a COPY packet: a row of bytes. -/
def copyXfer (q idx cid : Nat) (p : Packet) (edge : Nat) : Xfer :=
  let len := pkWord p 3 % 2 ^ 40
  { tid := none, cid, num := 0, pc := 0
    tmpl := { Tmpl.zero with tbase := pkAddr p 1, v := true, rank := 1, dims := [{ dim := len, str := 1, box := len }] }
    store := false, coord := [0], base := 0, c := 0, obj := none, edge, seq := 0, done := [], copy := some (q, idx, pkAddr p 2) }

/-- COPY_PACKET (R53): the copy goes to a channel of the partition; it waits while every one is full. -/
def execCopyPacket (q : Nat) (p : Packet) (s : State) : Host.Outcome State Fault Refusal :=
  .next (match s.copyChan (s.cx (s.qv q).cid).dies with
    | none => s
    | some (core, ch) => s.beginPkt q p fun s cid idx =>
      if pkWord p 3 % 2 ^ 40 = 0 then (.error qBadfield, s)
      else match s.cpAcs q cid (pkAddr p 1) true false with
        | (none, s) => (.error qAccess, s)
        | (some _, s) => match s.cpAcs q cid (pkAddr p 2) false true with
          | (none, s) => (.error qAccess, s)
          | (some _, s) =>
            (.ok (1, fun s =>
              let s := { s with pkts := s.pkts ++ [outPkt q idx cid p true] }
              s.startXfer core ch (copyXfer q idx cid p ((s.qv q).edge % 2 ^ 48)) true), s))

/-- PUBLISH (R285). -/
def execPublish (q : Nat) (p : Packet) (s : State) : Host.Outcome State Fault Refusal :=
  .next (s.beginPkt q p fun s cid idx =>
    (.ok (atOnce q cid idx p fun s => s.publish (s.cx cid).asid (pkWord p 1 % 2 ^ 24) (s.cpStamp q)), s))

/-- A packet with handle accesses is accepted first, once the table has room, and begins when its orderings are met (R61, R62).  One that then fails
its checks keeps its entries until its queue is reset (log 87). -/
def State.beginOrdered (s : State) (q : Nat) (p : Packet) (accept : State → Nat → Nat → State) (own : State → Nat → Nat → Begun) : State :=
  let h := s.qv q
  let c := s.cx h.cid
  if !s.standsAt q (pkSlots p) || !s.ordOk q p || decide (c.state < 3) || decide (6 < c.state) then s.beginPkt q p own
  else
    let s := if (s.acceptedAt q h.ridx).isNone ∧ s.handleRoom c.dies h.cid (pkHandles p) then accept s h.cid h.ridx else s
    match s.acceptedAt q h.ridx with
    | some e => if s.preOk e.pre then s.beginPkt q p own else s
    | none => s

/-- DEPEND (R62). -/
def execDepend (q : Nat) (p : Packet) (s : State) : Host.Outcome State Fault Refusal :=
  .next (s.beginOrdered q p (fun s cid idx => s.acceptPkt cid q idx p) fun s cid idx =>
    if 8 < pkNh p then (.error qBadfield, s) else (.ok (atOnce q cid idx p fun s => s), s))

/-! ### LAUNCH (R303, R311, R319) -/

/-- The LAUNCH that follows a LAUNCH, only NOP packets between them (log 34): its ring index, the packet, and the NOPs. -/
def State.follower (s : State) (q widx : Nat) : Nat → Nat → List (Nat × Packet) → Option (Nat × Packet × List (Nat × Packet))
  | 0, _, _ => none
  | fuel + 1, idx, nops =>
    if ahead widx idx = 0 ∨ 2 ^ 31 < ahead widx idx then none
    else match (s.readPacket q idx).1 with
      | none => none
      | some c =>
        if pkType c = 1 then (if pkSlots c ≤ ahead widx idx then some (idx, c, nops) else none)
        else if pkType c = 0 ∧ !badHeader c ∧ !pkOrd c then s.follower q widx fuel ((idx + 1) % 2 ^ 32) (nops ++ [(idx, c)])
        else none

/-- `SPLOK`. -/
def pkSplok (p : Packet) : Bool := (pkWord p 0).testBit 26

/-- The consumer that makes a candidate pair with a LAUNCH at the read index (R311). -/
def State.pairOf (s : State) (q cid idx : Nat) (p : Packet) : Option (Nat × Packet × List (Nat × Packet)) :=
  if !pkSplok p then none
  else match s.follower q (s.qv q).widx (2 ^ s.qsz q) ((idx + pkSlots p) % 2 ^ 32) [] with
    | none => none
    | some (j, c, nops) =>
      if pkSplok c && !pkOrd c && !badHeader c &&
          ((pkHandles p).any fun a => a.w && (pkHandles c).any fun b => b.r && b.h == a.h) &&
          (s.launchCheck none cid p).1.toBool && (s.launchCheck none cid c).1.toBool then some (j, c, nops)
      else none

/-- A LAUNCH is accepted; a candidate pair is accepted as one unit, and begins after what either is ordered after. -/
def State.acceptLaunch (s : State) (q cid idx : Nat) (p : Packet) : State :=
  match s.pairOf q cid idx p with
  | some (j, c, _) =>
    if !s.handleRoom (s.cx cid).dies cid (pkHandles p ++ pkHandles c) then s
    else
      let s := (s.acceptPkt cid q idx p).acceptPkt cid q j c
      let pre := (match s.acceptedAt q j with | some e => e.pre | none => []).filter (· != (q, idx))
      { s with pkts := s.pkts.map fun e => if e.q = q ∧ e.idx = idx then { e with pre := e.pre ++ pre, mate := some j } else e }
  | none => s.acceptPkt cid q idx p

/-- An accepted packet has begun, with the splice outcome of its record. -/
def State.markBegun (s : State) (q idx spr srsn : Nat) : State :=
  { s with pkts := s.pkts.map fun e => if e.q = q ∧ e.idx = idx then { e with begun := true, spr, srsn } else e }

/-- A grid begins: the edge of kind queue made by the CP thread (R398). -/
def State.cpStart (s : State) (q n : Nat) (g : Grid) : State :=
  let h := s.qv q
  s.startGrid n g h.die (cpLid h.die h.thr) (h.edge % 2 ^ 48) q 
    (((s.pkts.find? fun p => p.q == q && p.idx == g.idx).map fun p => p.w0.toNat / 2 ^ 32).getD 0)

/-- An unspliced LAUNCH. -/
def launchAlone (q n spr srsn idx : Nat) (g : Grid) (s : State) : State :=
  let s := s.markBegun q idx (if spr = 0 then (match s.acceptedAt q idx with | some e => e.spr | none => 0) else spr)
    (if spr = 0 then (match s.acceptedAt q idx with | some e => e.srsn | none => 0) else srsn)
  s.cpStart q n g

/-- A spliced pair begins: its entry is pinned and its elided pages are Vacated, the NOPs between the packets complete, the handles of elided stores are
marked Vacated, and one grid is launched. -/
def launchPair (q cid n idx j : Nat) (x : Spliced) (g c : Grid) (nops : List (Nat × Packet)) (s : State) : State :=
  let spr := if x.elided.isEmpty then 1 else 2
  let s := ((s.spliceBegin cid x).markBegun q idx spr 0).markBegun q j spr 0
  let s := { s with handles := s.handles.map fun (e : HEnt) => if e.cid = cid ∧ x.elided.contains e.handle then { e with vacated := true } else e }
  let s := nops.foldl (fun s y => s.pkSignal (outPkt q y.1 cid y.2 true)) s
  s.cpStart q n (x.grid g c)

/-- A refused pair: the consumer's record will carry the reason too. -/
def State.refusePair (s : State) (q j reason : Nat) : State :=
  { s with pkts := s.pkts.map fun e => if e.q = q ∧ e.idx = j then { e with spr := 3, srsn := reason } else e }

/-- The rules of a LAUNCH (R303): its number, its checks, and the pair it was accepted with. -/
def launchOwn (q : Nat) (p : Packet) (s : State) (cid idx : Nat) : Begun :=
  let (n, s) := s.takeNum
  match s.launchCheck (some q) cid p with
  | (.error e, s) => (.error e, s)
  | (.ok (o, bs), s) =>
    let g := { launchGrid o cid q idx p bs with splok := pkSplok p }
    let alone (spr srsn : Nat) (s : State) : Begun := (.ok (pkSlots p, launchAlone q n spr srsn idx g), s)
    match (s.acceptedAt q idx).bind (·.mate), s.pairOf q cid idx p with
    | some j, some (j', c, nops) =>
      match s.launchCheck none cid c with
      | (.ok (oc, cs), s) =>
        if j ≠ j' then alone 0 0 s
        else match s.spliceTry cid (leadDie (s.cx cid).dies) o oc p c with
          | (.ok x, s) =>
            (.ok (ahead (j + pkSlots c) idx, launchPair q cid n idx j x g (launchGrid oc cid q j c cs) nops), s)
          | (.error r, s) => alone 3 r (s.refusePair q j r)
      | (.error _, s) => alone 0 0 s
    | _, _ => alone 0 0 s

/-- LAUNCH (R303). -/
def execLaunch (q : Nat) (p : Packet) (s : State) : Host.Outcome State Fault Refusal :=
  .next (s.beginOrdered q p (fun s cid idx => s.acceptLaunch q cid idx p) (launchOwn q p))

/-! ### COLLECT (R307) -/

/-- A slot holds a schedule, or holds it again if the load in progress on it fails (R373, R375). -/
def TSlot.holds (x : TSlot) : Bool := decide (2 ≤ x.st) || x.loader.any fun l => decide (2 ≤ l.2)

/-- A schedule slot is bound to a collector node (R370). -/
def State.slotOfNode (s : State) (dies node : Nat) : Option Nat :=
  (s.slot.find? fun x => x.2.nv && x.2.node == node && x.2.holds && (s.cx x.2.cid).dies == dies).map (·.1)

/-- COLLECT (R307). -/
def execCollect (q : Nat) (p : Packet) (s : State) : Host.Outcome State Fault Refusal :=
  .next (s.beginPkt q p fun s cid idx =>
    let node := bitsOf (pkWord p 0) 16 8
    let tmr := pkWord p 3 % 2 ^ 8
    let dies := (s.cx cid).dies
    let fits (o : KObj) : Bool := (o.bdx, o.bdy, o.bdz, o.csize) == (32, 1, 1, 1) && decide ((8 * o.psz + 31) / 32 * 32 + 1024 ≤ o.spad) &&
      o.splice.isNone && decide (1 ≤ tmr) && decide (tmr ≤ 128) && (s.slotOfNode dies node).isNone
    match s.objCheck (some q) cid (pkAddr p 1) none (pkAddr p 2) 0 (fun _ => true) fits with
    | (.error e, s) => (.error e, s)
    | (.ok (o, bs), s) =>
      let g := { o.grid cid q idx bs with gx := 1, gy := 1, gz := 1 }
      (.ok (atOnce q cid idx p fun s =>
        let h := s.qv q
        let (_, s) := s.newEdge h.die cid { kind := 3, waiter := noLid, prod := cpLid h.die h.thr, obj := q, pred := h.edge % 2 ^ 48,
                                                tag := pkTag p }
        let nd := Tbl.get {} s.node (dies * 256 + node)
        { s with node := Tbl.set {} s.node (dies * 256 + node) { nd with def' := some g, tmr := tmr * 500 } }), s))

end Sys2Proof.Machine
end

