-- ==== Sys2Proof/Machine/Context.lean ====
section
/-!
DEFINITION. Contexts (R17 to R44): the commands of `CTX_CTL`, the choice of the context that runs, pre-emption, the save area, restore, and the
function reset (R69).
-/
namespace Sys2Proof.Machine

/-! ### Statuses (R22) -/

/-- The outcome of a command. -/
def State.ctxEnd (s : State) (cid st : Nat) : State := s.modCx cid fun c => { c with cstat := st }

/-- The address of `CTX_CTL`. -/
def ctxCtlAddr (cid : Nat) : Nat := hbmTop + 0x100000 + 0x1000 * cid

/-- A write of `CMD` by the access in hand: from HS or M mode only; BUSY while a command is in progress. -/
def State.ctxCmd (s : State) (run : State → Nat → State) : State :=
  let cid := s.acc.idx % 256
  if !whoHsm s.acc.who then s.dropWrite s.acc.who (ctxCtlAddr cid)
  else if (s.cx cid).cbusy then s.ctxEnd cid 1
  else run s cid

/-- A command from one state to another (R30). -/
def State.ctxMove (s : State) (cid : Nat) (go : Ctx → Option Ctx) : State :=
  match go (s.cx cid) with
  | some c => s.setCx cid { c with cstat := 0 }
  | none => s.ctxEnd cid 2

/-- CREATE (R30): the registers of the window are reset. -/
def execCtxCreate (s : State) : Host.Outcome State Fault Refusal :=
  .next (s.ctxCmd fun s cid => s.ctxMove cid fun c =>
    if c.state = 0 then
      some { ({} : Ctx) with state := 1, rrbase := c.rrbase, rrctl := c.rrctl, lockql2 := c.lockql2, lockqllc := c.lockqllc
                             pstat := c.pstat, pbusy := c.pbusy, pgva := c.pgva, pgpa := c.pgpa, pgarg := c.pgarg }
    else none)

/-- ENABLE (R30); a context that has never been Running waits from its first ENABLE (R33, log 93). -/
def execCtxEnable (s : State) : Host.Outcome State Fault Refusal :=
  .next (s.ctxCmd fun s cid => s.ctxMove cid fun c =>
    if c.state = 2 then some { c with state := if c.image then 6 else 3, leftRun := some (c.leftRun.getD s.time) } else none)

/-- DISABLE (R30). -/
def execCtxDisable (s : State) : Host.Outcome State Fault Refusal :=
  .next (s.ctxCmd fun s cid => s.ctxMove cid fun c => if c.state = 3 ∨ c.state = 6 then some { c with state := 2 } else none)

/-- The saved blocks that a context holds are given up: their grids end. -/
def State.dropImage (s : State) (cid : Nat) : State :=
  let gs := s.grid.filter fun x => x.2.live && x.2.cid == cid && x.2.saved
  let s := gs.foldl (fun s x => match x.2.spl with | some id => s.unpin id | none => s) s
  let s := gs.foldl (fun s x => s.dropGridPkts x.2) s
  { s with grid := s.grid.filter fun x => !(x.2.live && x.2.cid == cid && x.2.saved) }

/-- UNBIND (R30): a saved image is abandoned. -/
def execCtxUnbind (s : State) : Host.Outcome State Fault Refusal :=
  .next (s.ctxCmd fun s cid =>
    if (s.cx cid).state = 2 then (s.dropImage cid).ctxMove cid fun c => some { c with state := 1, image := false } else s.ctxEnd cid 2)

/-! ### BIND (R31) -/

/-- Every byte from one address up to another lies in Pinned pages. -/
def State.pinnedTo (s : State) (asid fin : Nat) : Nat → Nat → Bool
  | 0, va => decide (fin ≤ va)
  | fuel + 1, va =>
    if fin ≤ va then true
    else match s.heldOf asid va with
      | some (base, h) => h.st == 2 && s.pinnedTo asid fin fuel (base + psBytes h.ps)
      | none => false

/-- A range of bytes lies in Pinned pages. -/
def State.pinned (s : State) (asid va n : Nat) : Bool := s.pinnedTo asid (va + n) (s.held.length + 1) va

/-- Check 4: the pins. -/
def State.bindPins (s : State) (cid : Nat) (c : Ctx) : Bool :=
  let header (va : Nat) (o : Bool) : Bool := s.pinned c.asid va 64 && o
  (c.tracebase == 0 || header c.tracebase (s.traceCtl cid).isSome) && header c.himg (s.imageHdr cid c.himg).isSome &&
    (s.bindLens cid c).bindRanges.all fun r => s.pinned c.asid r.1 r.2

/-- Check 5: the image is one, and its signature verifies against the provider key. -/
def State.bindSig (s : State) (cid : Nat) (c : Ctx) : Bool :=
  match s.imageHdr cid c.himg with
  | some (magic, entry, ilen, off) =>
    s.mg.pkeySet && magic == 0x49484E58 && entry % 8 == 0 && decide (ilen ≤ off) &&
      (match (s.hwRead cid c.himg ilen).1, (s.hwRead cid ((c.himg + off) % 2 ^ 56) 3309).1 with
       | some msg, some sig => Config.mldsaVerify s.mg.pkey msg sig
       | _, _ => false)
  | none => false

/-- The `ASID` rule (R24): no bound context has the `ASID` with another `ROOT`. -/
def State.asidOk (s : State) (cid : Nat) (c : Ctx) : Bool :=
  s.ctx.all fun x => x.1 == cid || decide (x.2.state < 2) || x.2.asid != c.asid || x.2.root == c.root

/-- The first check of R31 that fails, as its status. -/
def State.bindCheck (s : State) (cid : Nat) : Nat :=
  let c := s.cx cid
  if !s.layout.contains c.dies then 4
  else if !c.v || !s.asidOk cid c then 5
  else if c.himg % 4096 ≠ 0 ∨ c.savebase % 4096 ≠ 0 ∨ c.tmplbase % 256 ≠ 0 ∨ c.tracebase % 4096 ≠ 0 ∨ c.faultq % 64 ≠ 0 then 6
  else if !s.bindPins cid c then 7
  else if !s.bindSig cid c then 9
  else 0

/-- The pages of the handler image become executable at S only. -/
def State.imagePages (s : State) (asid va n : Nat) : State :=
  { s with held := s.held.map fun x =>
      let base := x.1 % 2 ^ 40 * 2 ^ 16
      (x.1, if x.1 / 2 ^ 40 = asid ∧ base < va + n ∧ va < base + psBytes x.2.ps ∧ pteKind x.2.pte = 1 then
        { x.2 with pte := x.2.pte ||| (0x180#64) } else x.2) }

/-- BIND (R31). -/
def execCtxBind (s : State) : Host.Outcome State Fault Refusal :=
  .next (s.ctxCmd fun s cid =>
    if (s.cx cid).state ≠ 1 then s.ctxEnd cid 2
    else
      let st := s.bindCheck cid
      let s := { s with mg := { s.mg with firstBind := true } }
      if st ≠ 0 then s.ctxEnd cid st
      else
        let c := s.cx cid
        match s.imageHdr cid c.himg with
        | some (_, entry, _, off) =>
          (s.imagePages c.asid c.himg (off + 3309)).setCx cid { s.bindLens cid c with state := 2, tvec := (c.himg + entry) % 2 ^ 56, cstat := 0 }
        | none => s)

/-! ### Pre-emption (R33, R34, R36) -/

/-- The resident threads of a context that were launched and have not exited. -/
def State.liveThreads (s : State) (cid : Nat) : List Nat :=
  (s.blk.filter fun x => x.2.live && (s.gr x.2.gid).cid == cid).flatMap fun x =>
    ((upto (s.gr x.2.gid).slots).map (1024 * x.1 + ·)).filter s.liveTid

/-- Pre-emption begins (R34, steps 1 and 2); the context's queued hints go (R344). -/
def State.startPreempt (s : State) (cid why : Nat) : State :=
  let s := (s.modCx cid fun c => { c with state := 5, cbusy := true, ptmoAt := s.time, why }).dropHints cid
  (s.liveThreads cid).foldl (fun s t => s.modTh t fun x => { x with preempt := some 0, save := .none }) s

/-- PREEMPT (R30, R34). -/
def execCtxPreempt (s : State) : Host.Outcome State Fault Refusal :=
  .next (s.ctxCmd fun s cid =>
    let st := (s.cx cid).state
    if st = 4 then (s.ctxEnd cid 0).startPreempt cid 0
    else s.ctxEnd cid (if st = 3 ∨ st = 6 then 0 else 2))

/-- PREEMPT_TAKE (R34, R38). -/
def execPreemptTake (tid : Nat) (s : State) : Host.Outcome State Fault Refusal :=
  .next (if s.resident tid ∧ s.preemptReady tid then (if (s.th tid).st = .ready then s.boundary tid else s.takePreempt tid) else s)

/-- PTMO_EXPIRE (R36): a timeout of 0 is read as 1. -/
def execPtmoExpire (cid : Nat) (s : State) : Host.Outcome State Fault Refusal :=
  .next (
    let c := s.cx cid
    if c.state = 5 ∧ c.ptmoAt + max 1 c.ptmo * 10000 ≤ s.time then s.ctxFault cid 1 else s)

/-- SLICE_EXPIRE (R33): another context of equal priority with work takes over; otherwise the slice restarts. -/
def execSliceExpire (cid : Nat) (s : State) : Host.Outcome State Fault Refusal :=
  .next (
    let c := s.cx cid
    if c.state = 4 ∧ c.slice ≠ 0 ∧ c.sliceAt + c.slice * 1000 ≤ s.time then
      match s.chosen c.dies with
      | some o => if c.prio ≤ (s.cx o).prio then s.startPreempt cid 1 else s.modCx cid fun c => { c with sliceAt := s.time }
      | none => s.modCx cid fun c => { c with sliceAt := s.time }
    else s)

/-! ### The save area (R39 to R44) -/

/-- The transfers of a context on a channel are cancelled (R282). -/
def State.cancelCtx (s : State) (cid core ch : Nat) : State :=
  let xs := ((s.co core).chan ch).xs
  let mine := xs.filter fun x => x.cid == cid
  if mine.isEmpty then s
  else
    let failed := ((s.co core).chan ch).faulted && (match xs with | x :: _ => x.cid != cid | [] => false)
    let s := s.modCo core fun c => c.modChan ch fun k =>
      { k with xs := xs.filter (fun x => x.cid != cid), faulted := failed }
    mine.foldl (fun s x => match x.obj with
      | some (l, va) => s.deliver l va x.cid (x.tmpl.e * (x.tmpl.count - x.done.length)) (chanLid core ch) x.edge
      | none => s) s

/-- Every channel's transfers of a context are cancelled. -/
def State.cancelAll (s : State) (cid : Nat) : State :=
  (s.core.map (·.1)).foldl (fun s c => (upto 4).foldl (fun s k => s.cancelCtx cid c k) s) s

/-- Bytes of a block record. -/
def Grid.recLen (g : Grid) : Nat := 128 + 576 * g.gangs + g.slots * (64 + 4 * g.regs) + g.spad
/-- Offset of the scratchpad image in a block record. -/
def Grid.spadOff (g : Grid) : Nat := 128 + 576 * g.gangs + g.slots * (64 + 4 * g.regs)

/-- The resident blocks of a context, in the order of their placement. -/
def State.blocksOf (s : State) (cid : Nat) : List (Nat × Blk) := s.blk.filter fun x => x.2.live && (s.gr x.2.gid).cid == cid

/-- The grids with blocks to save. -/
def State.savedGrids (s : State) (cid : Nat) : List Nat := ((s.blocksOf cid).map (·.2.gid)).eraseDups

/-- Every thread of a context has been saved by its handler (R34, step 4: its return has ended its save, log 94), its flags are zero, and the transfers of
its blocks have ended (step 5), those of a Faulted channel apart, which step 5 cancels (R281). -/
def State.saveReady (s : State) (cid : Nat) : Bool :=
  ((s.liveThreads cid).all fun t => (s.th t).save == .done && (s.th t).flagsZero) &&
    (s.blocksOf cid).all fun x => !((s.co x.2.core).chans.any fun k => !k.faulted && k.xs.any fun y => match y.tid with
      | some t => tidBlk t == x.1
      | none => false)

/-- The scratchpad images are written (step 5). -/
def State.saveSpads (s : State) (cid : Nat) : Nat → List (Nat × Blk) → Option State
  | _, [] => some s
  | va, (_, b) :: bs =>
    let g := s.gr b.gid
    match s.hwWriteRun cid (va + g.spadOff) (chunksOf 8 (g.spad / 8) (s.bytes (spadLoc b.core b.spadBase) g.spad)) with
    | some s => s.saveSpads cid (va + g.recLen) bs
    | none => none

/-- The words of a grid record (R41). -/
def Grid.saveWords (g : Grid) : List Nat :=
  [g.q % 2 ^ 12 * 2 ^ 32 + g.num, g.code, (match g.spl with | some id => id * 2 + 1 | none => 0), g.retired, 0, 0, 0, 0]

/-- The words of the area header (R40). -/
def saveHeader (cid total nblk ngrid why seq : Nat) : List Nat :=
  [cid * 2 ^ 48 + 1 * 2 ^ 32 + 0x41534E58, total, nblk * 2 ^ 32 + ngrid, why, seq] ++ List.replicate 27 0

/-- What the save area does not hold of a grid's blocks stays with the grid: errors that were pending at `PREEMPT` (R229), and blocks that had retired
(R57, R100). -/
def State.keepBlocks (s : State) (gid : Nat) : Grid :=
  let g := s.gr gid
  let bs := s.blk.filter fun x => x.2.live && x.2.gid == gid
  { g with
    saved := true
    errs := bs.flatMap fun x => (upto g.slots).flatMap fun i => (s.th (1024 * x.1 + i)).errs.map fun e => (g.linear x.2, i, e)
    dones := (bs.filter (·.2.done)).map fun x => g.linear x.2 }

/-- A save completes (steps 5 and 6): transfers that have not ended are cancelled (R281), then images, grid records, header; the blocks leave their cores, and those that had not retired are debited (R57). -/
def State.saveAll (s : State) (cid : Nat) : State :=
  let c := s.cx cid
  let bs := s.blocksOf cid
  let gs := s.savedGrids cid
  let recs := c.savebase + 256 + 64 * gs.length
  let total := 256 + 64 * gs.length + (bs.map fun x => (s.gr x.2.gid).recLen).sum
  if c.savelen < total then s.ctxFault cid 3
  else
    let s := s.cancelAll cid
    let done := (s.saveSpads cid recs bs).bind fun s => (s.hwWords cid (c.savebase + 256) (gs.flatMap fun g => (s.gr g).saveWords)).bind fun s =>
      s.hwWords cid c.savebase (saveHeader cid total bs.length gs.length c.why (c.seq + 1))
    match done with
    | none => s.ctxFault cid 3
    | some s =>
      let s := s.writeMaps cid
      let s := gs.foldl (fun s g => s.setGr g (s.keepBlocks g)) s
      let s := bs.foldl (fun s x => (if x.2.done then s else s.debit (s.gr x.2.gid).q (s.blkCost x.2)).endThreads x.1 x.2.core
        ((upto (s.gr x.2.gid).slots).map (1024 * x.1 + ·))) s
      let s := s.dropBlks (bs.map (·.1))
      s.modCx cid fun c => { c with state := 6, cbusy := false, image := true, seq := c.seq + 1, leftRun := some s.time }

/-- SAVE_COMPLETE (R34). -/
def execSaveComplete (cid : Nat) (s : State) : Host.Outcome State Fault Refusal :=
  .next (if (s.cx cid).state = 5 ∧ s.saveReady cid then s.saveAll cid else s)

/-! ### Restore (R37) -/

/-- A block record as the lead CP reads it: its address, its grid, its place, and the thread headers (word 0 and word 1). -/
structure SBlk where
  va : Nat
  gid : Nat
  bx : Nat
  by' : Nat
  bz : Nat
  crank : Nat
  csize : Nat
  thrs : List (Nat × Nat)
  deriving DecidableEq, Repr

/-- The headers of `n` thread records of a size. -/
def State.readThrs (s : State) (cid va size : Nat) : Nat → Option (List (Nat × Nat))
  | 0 => some []
  | n + 1 =>
    match (s.hwRd cid va 8).1, (s.hwRd cid (va + 8) 8).1, s.readThrs cid (va + size) size n with
    | some a, some b, some r => some ((a, b) :: r)
    | _, _, _ => none

/-- The block records from an address on; `gids` are the grids of the grid records, in their order. -/
def State.readBlks (s : State) (cid : Nat) (gids : List Nat) : Nat → Nat → Option (List SBlk)
  | 0, _ => some []
  | n + 1, va =>
    match (s.hwRdWords cid va 6).1 with
    | none => none
    | some w =>
      let g (i : Nat) : Nat := w.getD i 0
      let gangs := g 3 % 2 ^ 6
      let slots := 4 * bitsOf (g 3) 8 9
      let regs := g 4 % 2 ^ 8
      match s.readThrs cid (va + 128 + 576 * gangs) (64 + 4 * regs) slots, s.readBlks cid gids n (va + g 5) with
      | some thrs, some rest =>
        some ({ va, gid := gids.getD (g 0 / 2 ^ 32) 0, bx := g 0 % 2 ^ 31, by' := g 1 % 2 ^ 16, bz := bitsOf (g 1) 16 16, crank := bitsOf (g 2) 4 4
                csize := g 2 % 16, thrs } :: rest)
      | _, _ => none

/-- The grid of a context with a number. -/
def State.gridNum (s : State) (cid num : Nat) : Option Nat :=
  (s.grid.find? fun x => x.2.live && x.2.cid == cid && x.2.num == num).map (·.1)

/-- The save area of a context. -/
def State.readSave (s : State) (cid : Nat) : Option (List SBlk) :=
  let base := (s.cx cid).savebase
  match (s.hwRd cid (base + 16) 8).1 with
  | none => none
  | some w =>
    let ngrid := w % 2 ^ 32
    match (s.hwRdWords cid (base + 256) (8 * ngrid)).1 with
    | none => none
    | some gw =>
      match (chunksOf 8 ngrid gw).mapM fun r => s.gridNum cid (r.getD 0 0 % 2 ^ 32) with
      | some gids => s.readBlks cid gids (w / 2 ^ 32) (base + 256 + 64 * ngrid)
      | none => none

/-- A restored thread of a block (R37, R44): empty when it had exited or was never launched, else about to enter its handler with PREEMPT, in the
unspliced view (R321). -/
def State.restored (s : State) (g : Grid) (blk slot : Nat) (w : Nat × Nat) : Thr :=
  let pc : DWord := .ofNat 64 w.1
  let t := g.thread slot
  let (spl, kid, opc) := s.originalIn g pc
  if w.2.testBit 3 then { t with st := .never }
  else if w.2.testBit 2 then { t with st := .exited }
  else
    { t with
      pc, edge := w.2 / 2 ^ 16, st := .entering, tpc := pc, tcode := cPreempt, tval := if w.2.testBit 0 then 3 else 2, tkid := kid
      errs := (g.errs.filter fun e => e.1 == blk && e.2.1 == slot).map (·.2.2), topc := opc, tspl := spl, thlp := t.helper, inh := true, hlt := w.2.testBit 0, tst := if w.2.testBit 0 then 5 else 0 }

/-- A saved block is placed on a core, its scratchpad image with it. -/
def State.putSaved (s : State) (cid : Nat) (b : SBlk) (core : Nat) (peers : List Nat) (bid : Nat) : Option State :=
  let g := s.gr b.gid
  let base := s.spadFor core g.spad
  match (s.hwRead cid (b.va + g.spadOff) g.spad).1 with
  | none => none
  | some bs =>
    let blk : Blk := { live := true, core, gid := b.gid, bx := b.bx, by' := b.by', bz := b.bz, crank := b.crank, peers, spadBase := base
                       placed := s.time, cyc := (s.di (coreDie core)).cycles, order := bid }
    let k := g.linear blk
    let blk := { blk with done := g.dones.contains k }
    let s := (s.setBk bid blk).modCo core fun c => { c with testing := false }
    let s := s.putThreads bid (fun i => s.restored g k i (b.thrs.getD i (0, 8))) (upto g.slots)
    some (s.wr (spadLoc core base) bs)

/-- The blocks of one block cluster are placed. -/
def State.putCluster (s : State) (cid first : Nat) (peers : List Nat) : List (SBlk × Nat) → Option State
  | [] => some s
  | (b, core) :: rest => (s.putSaved cid b core peers (first + b.crank)).bind fun s => s.putCluster cid first peers rest

/-- The saved blocks are placed, one block cluster after another; none when one finds no place. -/
def State.putAll (s : State) (cid : Nat) : Nat → List SBlk → Option State
  | _, [] => some s
  | 0, _ => none
  | fuel + 1, b :: bs =>
    let g := s.gr b.gid
    let mates := (b :: bs).filter fun x => x.gid == b.gid && x.bx / g.csize == b.bx / g.csize && x.by' == b.by' && x.bz == b.bz
    let rest := bs.filter fun x => !(x.gid == b.gid && x.bx / g.csize == b.bx / g.csize && x.by' == b.by' && x.bz == b.bz)
    match s.pickCores g with
    | none => none
    | some cores =>
      let first := s.blkCtr
      let peers := mates.map fun x => first + x.crank
      (({ s with blkCtr := first + g.csize } : State).putCluster cid first peers (mates.zip cores)).bind fun s => s.putAll cid fuel rest

/-- A Saved context is restored: every block is placed, or a core cluster is woken for it; the context is then Running. -/
def State.restore (s : State) (cid : Nat) : State :=
  match s.readSave cid with
  | none => s
  | some bs =>
    match s.putAll cid bs.length bs with
    | none => s.wakeFor (s.cx cid).dies
    | some s =>
      let s : State := { s with grid := s.grid.map fun x => (x.1, if x.2.cid = cid then { x.2 with saved := false, errs := [], dones := [] } else x.2) }
      s.modCx cid fun c => { c with state := 4, image := false, sliceAt := s.time }

/-- CTX_RESTORE (R37): the context that the lead CP has chosen (R33). -/
def execCtxRestore (cid : Nat) (s : State) : Host.Outcome State Fault Refusal :=
  .next (
    let dies := (s.cx cid).dies
    if (s.ctxOn dies fun st => st == 4 || st == 5).isNone ∧ s.chosen dies = some cid ∧ (s.cx cid).state = 6 then s.restore cid else s)

/-- CTX_DISPATCH (R33): a demand of higher priority pre-empts the Running context; with none Running, the chosen context is dispatched or
restored. -/
def execCtxDispatch (dies : Nat) (s : State) : Host.Outcome State Fault Refusal :=
  .next (match s.ctxOn dies (fun st => st == 4 || st == 5), s.chosen dies with
    | some r, some c => if (s.cx r).state = 4 ∧ (s.cx r).prio < (s.cx c).prio then s.startPreempt r 2 else s
    | none, some c => if (s.cx c).state = 6 then s.restore c else s.dispatch c none
    | _, none => s)

/-! ### DESTROY (R32) -/

/-- Outstanding fabric requests of a context's queues and schedules are then its own. -/
def State.ownRequests (s : State) (cid : Nat) : State :=
  { s with fab := { s.fab with out := s.fab.out.map fun r => match r.owner with
      | .cp q => if (s.qv q).cid = cid then { r with owner := .ctx cid } else r
      | .slot n => if (s.sl n).cid = cid then { r with owner := .ctx cid } else r
      | _ => r } }

/-- A collector node without a context's definition and gathers (R307). -/
def Node.without (n : Node) (cid : Nat) : Node :=
  { n with
    def' := match n.def' with | some g => if g.cid = cid then none else some g | none => none
    gathers := n.gathers.filter fun y => y.grid.cid != cid }

/-- Steps 1 to 3 of R32: threads, channels, queues; the schedules of the context are unloaded, and its nodes, records, locks and splices
are discarded. -/
def State.destroy (s : State) (cid : Nat) : State :=
  let bs := s.blocksOf cid
  let s := bs.foldl (fun s x => s.endThreads x.1 x.2.core ((upto (s.gr x.2.gid).slots).map (1024 * x.1 + ·))) s
  let s := s.cancelAll cid
  let s := (s.dropBlks (bs.map (·.1))).ownRequests cid
  let s := s.resetQueues (s.resetsOf cid)
  let s := (s.dropGrids cid).dropHints cid
  let s := (s.pkts.filter fun p => p.cid == cid).foldl (fun s p => s.dropPkt p.q p.idx) s
  let s : State := { s with
    slot := s.slot.filter fun x => x.2.cid != cid || x.2.st == 0
    node := s.node.filterMap fun x =>
      let n := x.2.without cid
      if n.def'.isNone && n.gathers.isEmpty then none else some (x.1, n)
    core := (s.core.map fun x => (x.1, { x.2 with sampled := x.2.sampled.filter fun y => y.cid != cid })).filter fun x => !(x.2 == Core.fresh)
    recs := s.recs.filter fun r => r.cid != cid
    faults := s.faults.filter fun f => f.cid != cid
    splices := s.splices.filter fun e => e.cid != cid
    locks := s.locks.filter fun l => l.cid != cid }
  s.modCx cid fun c => { c with state := 8, cbusy := true, image := false, step := none, closed := [] }

/-- DESTROY (R30, R32). -/
def execCtxDestroy (s : State) : Host.Outcome State Fault Refusal :=
  .next (s.ctxCmd fun s cid => if (s.cx cid).state = 0 then s.ctxEnd cid 2 else (s.destroy cid).ctxEnd cid 0)

/-- A fabric request of a context is outstanding. -/
def State.hasRequest (s : State) (cid : Nat) : Bool :=
  s.fab.out.any fun r => match r.owner with
    | .ctx c | .walk c => c == cid
    | .thread t => s.cidOf t == cid && s.resident t
    | .cp q => (s.qv q).cid == cid
    | .slot n => (s.sl n).cid == cid
    | .gov => false

/-- Queues become Disabled. -/
def State.disableQueues (s : State) : List Nat → State
  | [] => s
  | q :: qs => (s.qput q { s.qv q with mapped := false, qst := 0 }).disableQueues qs

/-- Steps 4 and 5 of R32 done: shadow contents are discarded, and the context is Free. -/
def State.freeCtx (s : State) (cid : Nat) : State :=
  let asid := (s.cx cid).asid
  let s := s.disableQueues (s.queuesOf cid)
  let s : State := { s with held := s.held.map fun x => (x.1, if x.1 / 2 ^ 40 = asid ∧ x.2.st = 4 then { x.2 with written := [] } else x.2) }
  s.modCx cid fun c => { c with state := 0, cbusy := false, fcause := 0 }

/-- DESTROY_DRAIN_COMPLETE (R32); a function reset frees its contexts itself (R69). -/
def execDestroyDrainComplete (cid : Nat) (s : State) : Host.Outcome State Fault Refusal :=
  .next (if (s.cx cid).state = 8 ∧ s.pkg.reset ≠ some (5, (s.cx cid).func) ∧ !s.hasRequest cid then s.freeCtx cid else s)

/-! ### The function reset (R69, rung 5) -/

/-- The listed cells of ranges of memory leave it: the ranges read 0; the held-state table is not touched (R255). -/
def State.zeroRanges (s : State) (rs : List (Nat × Nat)) : State :=
  { s with
    mem := s.mem.filter fun c => s.inHst c.1 1 || !(rs.any fun r => decide (r.1 ≤ c.1) && decide (c.1 < r.1 + r.2))
    watch := rs.foldl (fun w r => hitWatches w r.1 r.2 0) s.watch
    hres := rs.foldl (fun h r => dropRes h r.1 r.2) s.hres }

/-- The local frames that a context's entries map, and its table pages. -/
def State.framesOf (s : State) (root : Nat) : List (Nat × Nat) :=
  (s.leaves root).filterMap (fun x => match pteKind x.2 with
    | 1 => if pteFrame x.2 < hbmTop then some (pteFrame x.2, psBytes (ptePs x.2)) else none
    | 2 => if pteGdn x.2 = s.gdn ∧ pteRframe x.2 < hbmTop then some (pteRframe x.2, 2 ^ 16) else none
    | _ => none) ++ s.tables root

/-- The contexts of a function that are not Free. -/
def State.funcCtxs (s : State) (f : Nat) : List Nat := (s.ctx.filter fun x => x.2.state != 0 && x.2.func == f).map (·.1)

/-- The end of a function reset: the contexts are Free, their memory is cleared and their records removed. -/
def State.clearFunc (s : State) (cs : List Nat) : State :=
  let rs := cs.flatMap fun c => s.framesOf (s.cx c).root
  let asids := cs.map fun c => (s.cx c).asid
  let s := (cs.foldl (fun s c => s.freeCtx c) s).zeroRanges rs
  ({ s with held := s.held.filter fun x => !asids.contains (x.1 / 2 ^ 40) } : State).tlbDrop fun e => asids.contains e.asid

/-- RESET_FUNCTION (R69): the contexts of the function are destroyed, which waits for their fabric requests (R32); then the reset ends. -/
def execResetFunction (who : Who) (tgt : Nat) (s : State) : Host.Outcome State Fault Refusal :=
  .next (
    let cs := s.funcCtxs tgt
    if whoAdmin who && s.pkg.reset == some (5, tgt) then
      let s := (cs.filter fun c => (s.cx c).state != 8).foldl (fun s c => s.destroy c) s
      if cs.any s.hasRequest then { s with agenda := s.agenda ++ [.elapse 1, .event (.resetFunction who tgt)] }
      else
        let s := s.clearFunc cs
        ({ s with pkg := { s.pkg with rstat := 0, reset := none } }).unlatch
    else s.rstctl who 5 tgt (.resetFunction who tgt) (64 ≤ tgt || cs.isEmpty) id)

end Sys2Proof.Machine
end

