-- ==== Sys2Proof/Machine/Trace.lean ====
section
/-!
DEFINITION. Step marks and critical paths (R400, R401), and the Scribe's answer to an EDGEQ (R399).
-/
namespace Sys2Proof.Machine

/-! ### Step marks (R400) -/

/-- STEPMARK (R400): a mark with the CP thread's edge id is on its way to the lead die's Scribe. -/
def execStepmark (q : Nat) (p : Packet) (s : State) : Host.Outcome State Fault Refusal :=
  .next (s.beginPkt q p fun s cid idx =>
    (.ok (atOnce q cid idx p fun s =>
      let h := s.qv q
      { s with agenda := s.agenda ++
          [Move.event (.stepMarkArrive cid (.ofNat 64 (pkWord p 1)) h.edge (cpLid h.die h.thr))] }), s))

/-- STEP_MARK_ARRIVE (R400). -/
def execStepMarkArrive (cid : Nat) (step : DWord) (edge : Nat) (_thr : Nat) (s : State) : Host.Outcome State Fault Refusal :=
  .next (
    let c := s.cx cid
    match c.step with
    | none => s.setCx cid { c with step := some step, stepAt := s.time }
    | some old =>
      if step.toNat ≤ old.toNat then s
      else
        let s := s.setCx cid { c with step := some step, stepAt := s.time
                                      closed := c.closed ++ [(old, c.stepAt, s.time, edge % 2 ^ 48)] }
        { s with agenda := s.agenda ++ [Move.event (.criticalPathWalk cid)] })

/-! ### The walk (R401) -/

/-- What the walk knows of an edge id. -/
inductive EdgeAt where
  | held (e : Edge)
  | absent
  | failed
  /-- Its device has to be asked. -/
  | ask

/-- The record of an edge id: from this device's caches, or from the answer to an EDGEQ. -/
def State.edgeAt (s : State) (cid e : Nat) : EdgeAt :=
  if e / 2 ^ 28 = s.gdn then
    let r := Tbl.get {} s.edges e
    if r.kind = 0 then .absent else .held r
  else match (s.cx cid).answers.find? fun a => a.1 == e with
    | some (_, 0, r) => .held r
    | some (_, 1, _) => .absent
    | some _ => .failed
    | none => .ask

/-- The time of the record of a predecessor: the start when it is absent, fails or lies in another pod; none while it has to be asked for. -/
def State.predTime (s : State) (cid start e : Nat) : Option Nat :=
  if e % 2 ^ 26 = 0 ∨ e / 2 ^ 38 ≠ s.pkg.pod then some start
  else match s.edgeAt cid e with
    | .held r => some r.time
    | .ask => none
    | _ => some start

/-- An entry of a report. -/
def walkEntry (e : Nat) (r : Edge) (wait n : Nat) : List Nat :=
  [0x04 * 2 ^ 56 + r.kind * 2 ^ 52 + e % 2 ^ 48, r.time % 2 ^ 40 * 2 ^ 24 + r.prod % 2 ^ 24, r.obj % 2 ^ 56,
   min wait (2 ^ 32 - 1) * 2 ^ 32 + n % 2 ^ 12]

/-- The walk from an edge id: its `END` and its entries, or the edge id to ask for. -/
def State.walkFrom (s : State) (cid start : Nat) : Nat → Nat → Nat → Except Nat (Nat × List (List Nat))
  | 0, _, _ => .ok (2, [])
  | fuel + 1, n, e =>
    if e % 2 ^ 26 = 0 then .ok (1, [])
    else if e / 2 ^ 38 ≠ s.pkg.pod then .ok (5, [])
    else match s.edgeAt cid e with
      | .ask => .error e
      | .failed => .ok (4, [])
      | .absent => .ok (3, [])
      | .held r =>
        if r.time < start then .ok (0, [])
        else match s.predTime cid start r.pred with
          | none => .error r.pred
          | some pt =>
            match s.walkFrom cid start fuel (n + 1) r.pred with
            | .error a => .error a
            | .ok (fin, es) => .ok (fin, walkEntry e r (r.time - max start pt) n :: es)

/-- CRITICAL_PATH_WALK (R401): the oldest closed step's walk asks other devices for what it needs, and writes its report when it ends; the
next walk then begins. -/
def execCriticalPathWalk (cid : Nat) (s : State) : Host.Outcome State Fault Refusal :=
  .next (match (s.cx cid).closed with
    | [] => s
    | (step, start, close, term) :: rest =>
      match s.walkFrom cid start 4096 0 term with
      | .error e =>
        if s.fab.out.any fun r => r.owner == .walk cid then s
        else match s.request (.walk cid) 7 (e / 2 ^ 28) 0 0 0 0 (natLe 8 e) with
          | some (_, s) => s
          | none => { s with agenda := s.agenda ++ [.elapse 1, .event (.criticalPathWalk cid)] }
      | .ok (fin, es) =>
        let s := s.modCx cid fun c => { c with closed := rest, answers := [] }
        let s := s.traceWrite cid ([0x03 * 2 ^ 56 + fin * 2 ^ 52 + es.length * 2 ^ 32, step.toNat, start, close] :: es)
        if rest.isEmpty then s else { s with agenda := s.agenda ++ [.event (.criticalPathWalk cid)] })

/-! ### EDGEQ (R399) -/

/-- The 32 bytes that answer an EDGEQ: the record, or zeros when it is not held. -/
def State.edgeAnswer (s : State) (e : Nat) : List Byte :=
  let r := Tbl.get {} s.edges e
  if r.kind = 0 then natLe 32 0 else (r.words e).flatMap (natLe 8 ·)

/-- The record of an answer, its time completed from this device's package time. -/
def edgeOfBytes (now : Nat) (bs : List Byte) : Nat × Edge :=
  let w (i : Nat) : Nat := leNat ((bs.drop (8 * i)).take 8)
  if leNat bs = 0 then (1, {})
  else
    let t := now / 2 ^ 40 * 2 ^ 40 + w 1 / 2 ^ 24
    (0, { kind := bitsOf (w 0) 52 4, waiter := w 0 % 2 ^ 24, prod := w 1 % 2 ^ 24, obj := w 2, pred := w 3 / 2 ^ 16
          time := if t ≤ now then t else t - 2 ^ 40 })

end Sys2Proof.Machine
end

