-- ==== Sys2Proof/Machine/Truss.lean ====
section
/-!
DEFINITION. Truss words (R377 to R388): registers and branches, chunks and pieces, moving and reducing data, signals, barriers, and the end
of a run.
-/
namespace Sys2Proof.Machine

/-! ### Slots -/

/-- Register gn of a slot. -/
def TSlot.gr (x : TSlot) (n : BitVec 4) : DWord := x.g.getD n.toNat 0
/-- Register gn of a slot written. -/
def TSlot.setG (x : TSlot) (n : BitVec 4) (v : DWord) : TSlot := { x with g := setAt 0 x.g n.toNat v }
/-- The entry of a rank: `PSLOT`, `GDN`, `PIDX`. -/
def TSlot.peer (x : TSlot) (r : Nat) : Nat × Nat × Nat := x.comm.getD r (0, 0, 0)
/-- The die of a slot's engine. -/
def TSlot.die (x : TSlot) : Nat := x.eng / 4
/-- The mark of a slot's engine on its writes. -/
def TSlot.stamp (x : TSlot) : Nat := stampOf (x.edge % 2 ^ 48) (engineLid x.eng)

/-- The slot whose schedule an engine executes. -/
def State.slotOn (s : State) (e : Nat) : Option Nat :=
  (s.slot.find? fun x => x.2.eng == e && x.2.st == 4 && x.2.wait == .none).map (·.1)

/-- The program counter of a slot moves, unless the slot has become Faulted. -/
def State.tPc (s : State) (n : Nat) (off : Int) : State :=
  s.modSl n fun x => if x.st = 7 then x else { x with pc := ((x.pc : Int) + off).toNat }

/-- The record's cause for a fault reason (R388). -/
def tCause (reason : Nat) : Nat := if reason = 4 then 0x09 else if reason = 5 then 0x0A else if reason = 6 then 0x0C else if reason = 7 then 0x0E else 0

/-- A fault of a slot (R388): its record, then the slot Faulted. -/
def State.tFault (s : State) (n reason nak va : Nat) (wr : Bool) : State :=
  let x := s.sl n
  let r := { engRec 4 (tCause reason) va wr x.eng (.ofNat 64 x.pc) x.skid 0 with nak, rd := !wr && decide (4 ≤ reason) && decide (reason ≤ 7) }
  ((s.faultRec x.cid r).2.slotDown n reason).modSl n fun x => { x with nakc := if reason = 7 then nak else 0 }

/-- What a Truss word comes to: the next word, a branch, a fault with its reason and address, or the slot left where it is. -/
inductive TRes where
  | next (s : State)
  | jump (s : State) (off : Int)
  | fault (s : State) (reason : Nat) (va : Nat := 0) (wr : Bool := false)
  | hold (s : State)

/-- A word of the slot that the engine whose turn it is executes. -/
def runTruss (f : Nat → TSlot → State → TRes) (s : State) : Host.Outcome State Fault Refusal :=
  match s.slotOn s.eturn with
  | none => .fault .noSchedule
  | some n => .next (match f n (s.sl n) s with
    | .next t => t.tPc n 1
    | .jump t off => t.tPc n off
    | .fault t r va wr => t.tFault n r 0 va wr
    | .hold t => t)

/-- A word that only changes its slot. -/
def tRegs (f : TSlot → TSlot) : Nat → TSlot → State → TRes := fun n x s => .next (s.setSl n (f x))

/-! ### Register words (R379) -/

/-- `IMM48`, sign-extended. -/
def tImm (f : TB) : DWord := f.imm.signExtend 64

/-- TRUSS_NOP (R379). -/
def execTrussNop (_f : TB) (s : State) : Host.Outcome State Fault Refusal := runTruss (fun _ _ s => .next s) s

/-- TRUSS_MOVI (R379). -/
def execTrussMovi (f : TB) (s : State) : Host.Outcome State Fault Refusal := runTruss (tRegs fun x => x.setG f.d (tImm f)) s

/-- TRUSS_ADDI (R379). -/
def execTrussAddi (f : TB) (s : State) : Host.Outcome State Fault Refusal :=
  runTruss (tRegs fun x => x.setG f.d (x.gr f.a + tImm f)) s

/-- TRUSS_ADD (R379). -/
def execTrussAdd (f : TA) (s : State) : Host.Outcome State Fault Refusal :=
  runTruss (tRegs fun x => x.setG f.d (x.gr f.a + x.gr f.b)) s

/-- TRUSS_MULI (R379). -/
def execTrussMuli (f : TB) (s : State) : Host.Outcome State Fault Refusal :=
  runTruss (tRegs fun x => x.setG f.d (x.gr f.a * tImm f)) s

/-- TRUSS_PEER (R379): the sum is exact. -/
def execTrussPeer (f : TB) (s : State) : Host.Outcome State Fault Refusal :=
  runTruss (tRegs fun x => x.setG f.d (.ofNat 64 (((x.rank : Int) + (x.gr f.a).toInt + f.imm.toInt) % (x.size : Int)).toNat)) s

/-- What `PARAM` reads at an index. -/
def State.tParam (s : State) (n : Nat) (x : TSlot) (i : Int) : Option DWord :=
  if 0 ≤ i ∧ i < 32 then some (x.params.getD i.toNat 0)
  else if i = 32 then some (.ofNat 64 x.rank)
  else if i = 33 then some (.ofNat 64 x.size)
  else if i = 34 then some (.ofNat 64 n)
  else if i = 35 then some (.ofNat 64 s.gdn)
  else if i = 36 then some (.ofNat 64 s.time)
  else none

/-- TRUSS_PARAM (R379). -/
def execTrussParam (f : TB) (s : State) : Host.Outcome State Fault Refusal :=
  runTruss (fun n x s => match s.tParam n x f.imm.toInt with
    | some v => .next (s.setSl n (x.setG f.d v))
    | none => .fault s 1) s

/-! ### Control words (R380) -/

/-- TRUSS_BRA (R380). -/
def execTrussBra (f : TB) (s : State) : Host.Outcome State Fault Refusal := runTruss (fun _ _ s => .jump s f.imm.toInt) s

/-- TRUSS_BNZ (R380). -/
def execTrussBnz (f : TB) (s : State) : Host.Outcome State Fault Refusal :=
  runTruss (fun _ x s => if x.gr f.a ≠ 0 then .jump s f.imm.toInt else .next s) s

/-- TRUSS_LOOP (R380). -/
def execTrussLoop (f : TB) (s : State) : Host.Outcome State Fault Refusal :=
  runTruss (fun n x s =>
    let v := x.gr f.a - 1
    let s := s.setSl n (x.setG f.a v)
    if v ≠ 0 then .jump s f.imm.toInt else .next s) s

/-- TRUSS_TRAP (R380). -/
def execTrussTrap (f : TB) (s : State) : Host.Outcome State Fault Refusal :=
  runTruss (fun n x s => .fault (s.setSl n { x with trap := tImm f }) 8) s

/-! ### Chunks and pieces (R381) -/

/-- A chunk of a slot. -/
def TSlot.chunk (x : TSlot) (c : Nat) : Chunk := Tbl.get {} x.chunks c

/-- TRUSS_CHUNK (R381). -/
def execTrussChunk (f : TC) (s : State) : Host.Outcome State Fault Refusal :=
  runTruss (tRegs fun x =>
    let size := (x.gr f.rb).toNat
    let c : Chunk := { v := size != 0 && decide (size ≤ 2 ^ 32), win := f.xf.getLsbD 0, base := (x.gr f.ra).toNat % 2 ^ 56, size
                       stride := (x.gr f.rp).toNat }
    { x with chunks := Tbl.set {} x.chunks f.ca.toNat c }) s

/-- The address of piece k. -/
def Chunk.piece (c : Chunk) (k : DWord) : Nat := (c.base + k.toNat * c.stride) % 2 ^ 56

/-- The checks of R382 on the chunks a word names: valid, local or window as the word requires, multiples of e, and of one size. -/
def TSlot.chunksOk (x : TSlot) (e a : Nat) (awin : Bool) (b : Nat) (bwin : Bool) : Bool :=
  let ok (c : Chunk) (win : Bool) : Bool := c.v && c.win == win && c.size % e == 0 && c.base % e == 0 && c.stride % e == 0
  ok (x.chunk a) awin && ok (x.chunk b) bwin && (x.chunk a).size == (x.chunk b).size

/-- The window of a REDSEND at its peer: chunk CB + 1. -/
def TSlot.windowOk (x : TSlot) (e c : Nat) : Bool :=
  let w := x.chunk c
  c < 64 && w.v && w.win && w.size % e == 0 && w.base % e == 0 && w.stride % e == 0

/-! ### Local accesses (R382, R385, R388) -/

/-- The fault reason of an engine's failed access. -/
def tReason (code : Nat) : Nat := if code = cPageFatal then 4 else if code = cEccMem then 6 else 5

/-- Elements read from a local piece, or by an arrival (`live`), lowest address first; or the code and address that fail. -/
def State.tRead (s : State) (cid die e va n : Nat) (live : Bool := false) : Except (Nat × Nat) (List Nat) × State :=
  match n with
  | 0 => (.ok [], s)
  | k + 1 =>
    match s.tRead cid die e va k live with
    | (.error x, s) => (.error x, s)
    | (.ok vs, s) =>
      let a := (va + k * e) % 2 ^ 56
      match s.engAcs cid die a true false live with
      | (.ok _ (.loc l), s) => (if s.poisoned l e then .error (cEccMem, a) else .ok (vs ++ [s.rd l e]), s)
      | (.ok _ (.dev pa), s) => let (v, s) := s.devRead pa e; (.ok (vs ++ [v]), s)
      | (.ok _ _, s) => (.error (cAccess, a), s)
      | (.fail c, s) => (.error (c, a), s)
      | (.wait _ _, s) => (.ok vs, s)

/-- What the writes of a word to a local piece will meet. -/
inductive TAcc where
  | ok
  /-- They wait for a Migrating page (R264), by its record. -/
  | wait (key : Nat)
  | fail (code va : Nat)

/-- A slot whose word's writes wait stays at the word (R264), which its engine tries again. -/
def State.tHeld (s : State) (x : TSlot) (key : Nat) : TRes := .hold (s.lateAt key (.engine x.eng))

/-- The checks of every element that a word, or an arrival (`live`), writes. -/
def State.tWritable (s : State) (cid die e va n : Nat) (live : Bool := false) : TAcc × State :=
  match n with
  | 0 => (.ok, s)
  | k + 1 =>
    match s.tWritable cid die e va k live with
    | (.ok, s) =>
      let a := (va + k * e) % 2 ^ 56
      (match s.engAcs cid die a false true live with
        | (.ok _ (.loc _), s) | (.ok _ (.dev _), s) => (.ok, s)
        | (.ok _ _, s) => (.fail cAccess a, s)
        | (.fail c, s) => (.fail c a, s)
        | (.wait _ k, s) => (.wait k, s))
    | r => r

/-- An engine write of one element. -/
def State.tPut (s : State) (x : TSlot) (e va v : Nat) : State :=
  match s.engAcs x.cid x.die va false true with
  | (.ok pg (.loc l), s) => s.engineWrite (s.cx x.cid).asid pg va l (natLe e v) x.stamp
  | (.ok _ (.dev pa), s) => s.engDevWrite x.eng pa e v
  | (_, s) => s

/-- The engine writes of a piece. -/
def State.tWrite (s : State) (x : TSlot) (e va : Nat) : List Nat → State
  | [] => s
  | v :: vs => (s.tPut x e va v).tWrite x e ((va + e) % 2 ^ 56) vs

/-! ### Remote operations (R381, R385, R386) -/

/-- A run of bytes cut where a boundary of `lim` is met. -/
def tCuts (lim : Nat) : Nat → Nat → Nat → List (Nat × Nat)
  | 0, _, _ => []
  | fuel + 1, va, n => if n = 0 then [] else let k := min n (lim - va % lim); (va, k) :: tCuts lim fuel (va + k) (n - k)

/-- The largest power of two up to 16 that divides both addresses and is no more than `n`. -/
def tUnit (a b n : Nat) : Nat := ([16, 8, 4, 2].find? fun k => a % k = 0 && b % k = 0 && k ≤ n).getD 1

/-- A run of bytes cut into naturally aligned units of up to 16 bytes. -/
def tUnits : Nat → Nat → Nat → Nat → List (Nat × Nat)
  | 0, _, _, _ => []
  | fuel + 1, a, b, n => if n = 0 then [] else let k := tUnit a b n; (a, k) :: tUnits fuel (a + k) (b + k) (n - k)

/-- Why a window address has no place at the peer (R381): the cause and the address, or the Migrating page that a write waits for (R264). -/
inductive TStop where
  | fail (code va : Nat)
  | wait (key : Nat)

/-- The place at the peers of a window address of an engine, when its page is of a kind and passes a test. -/
def State.tPlace (s : State) (cid die va kind : Nat) (rd wr : Bool) (ok : DWord → Bool) (at' : DWord → Nat) : Except TStop Nat × State :=
  if spliceVa ≤ va then (.error (.fail cAccess va), s)
  else match s.xlat cid none die va with
    | (.error _, s) => (.error (.fail cPageFatal va), s)
    | (.ok x, s) =>
      (if !x.permits s .u kind rd wr || !ok x.pte || x.held.st == 6 then .error (.fail cAccess va)
       else match (if wr then x.waitsOn s (s.cx cid).asid va else none) with
         | some k => .error (.wait k)
         | none =>
           let pa := at' x.pte + va % psBytes (ptePs x.pte)
           .ok (if kind = 2 ∧ pteGdn x.pte = s.gdn then s.redirected pa else pa), s)

/-- The physical address at a peer of a window address (R381): a fabric page whose `GDN` is the peer's. -/
def State.tWindow (s : State) (cid die va gdn : Nat) (rd wr : Bool) : Except TStop Nat × State :=
  s.tPlace cid die va 2 rd wr (fun e => pteGdn e == gdn) pteRframe

/-- The offset in the members' frames of a multicast window address (R381). -/
def State.tMulti (s : State) (cid die va group : Nat) : Except TStop Nat × State :=
  s.tPlace cid die va 3 false true (fun e => pteGroup e == group) fun _ => 0

/-- What a word whose window address has no place comes to. -/
def State.tStopped (s : State) (x : TSlot) (z : TStop) (wr : Bool) : TRes :=
  match z with
  | .fail c v => .fault s (tReason c) v wr
  | .wait k => s.tHeld x k

/-- The first failure of a list of runs, or the address each has at its target. -/
def State.tResolve (s : State) (f : State → Nat → Except TStop Nat × State) : List (Nat × Nat) → Except TStop (List (Nat × Nat × Nat)) × State
  | [] => (.ok [], s)
  | (va, k) :: cs =>
    match f s (va % 2 ^ 56) with
    | (.error x, s) => (.error x, s)
    | (.ok pa, s) =>
      match s.tResolve f cs with
      | (.error x, s) => (.error x, s)
      | (.ok rs, s) => (.ok ((va % 2 ^ 56, pa, k) :: rs), s)

/-- A signal increment for a slot of a device of this pod (R386). -/
def tSignal (rank gdn pslot sig count : Nat) : TSend :=
  { rank, gdn, kind := 4, opx := 3, atype := 3, pa := signalBase + 0x80 * pslot + 8 * sig, data := natLe 8 count }

/-- A signal increment for a rank: over the fabric, or on the queue pair of a rank in another pod. -/
def State.tSig (s : State) (x : TSlot) (rank sig count : Nat) : TSend :=
  let (pslot, gdn, _) := x.peer rank
  if gdn / 2 ^ 10 = s.pkg.pod then tSignal rank gdn pslot sig count
  else { rank, gdn, kind := 4, pa := 0, eth := some (.send sig count (x.edge % 2 ^ 48)) }

/-- The width code of a unit of bytes. -/
def unitCode (k : Nat) : Nat := if k = 16 then 4 else if k = 8 then 3 else if k = 4 then 2 else if k = 2 then 1 else 0

/-- The data of a local RECV, or of one element of it, enter the local piece. -/
def State.tLand (s : State) (n dst : Nat) (bs : List Byte) : State := s.tWrite (s.sl n) 1 dst (bs.map (·.toNat))

/-- A RoCEv2 operation to a rank, on the queue pair that the load opened for it (R373), with the rank's entry of the Ethernet peer table (R372). -/
def State.ethOp (s : State) (n rank : Nat) (op : RoceOp) : EthOut :=
  let (pslot, _, pidx) := (s.sl n).peer rank
  let a := s.pkg.enptbase + 64 * pidx
  { slot := n, rank, qpn := 1024 * pslot + (s.sl n).rank, ip := s.rd a 16, mac := s.rd (a + 16) 6, port := s.rd (a + 22) 1 % 8
    vlan := s.rd (a + 24) 2, op }

/-- An operation leaves on a queue pair of a slot. -/
def State.roceOut (s : State) (n rank : Nat) (op : RoceOp) : State := { s with fab := { s.fab with eth := s.fab.eth ++ [s.ethOp n rank op] } }

/-- The lowest rank of a device in a slot's communicator. -/
def TSlot.rankOf (x : TSlot) (gdn : Nat) : Option Nat := (upto x.size).find? fun r => (x.peer r).2.1 == gdn

/-- The packet that an operation sends now: of an MCAST, from its member's entry (R362): none for a member that is not valid, NAK code 5 for one in
another pod or of no rank. -/
def State.tPacket (s : State) (x : TSlot) (t : TSend) : Except Nat (Option TSend) :=
  match t.mc with
  | none => .ok (some t)
  | some (g, m) =>
    match s.mcEntry g m with
    | (false, _, _) => .ok none
    | (true, frame, gdn) =>
      match x.rankOf gdn with
      | some rank =>
        if gdn / 2 ^ 10 ≠ s.pkg.pod then .error 5
        else if t.kind = 5 then .ok (some { t with rank, gdn, pa := if gdn = s.gdn then s.redirected (frame + t.pa) else frame + t.pa })
        else .ok (some (tSignal rank gdn (x.peer rank).1 t.pa 1))
      | none => .error 5

/-- A packet is sent: performed at once when it names this device, else given a tag among the fabric requests or a number on a queue
pair; none while there is no room, or while the frame that it writes migrates (R264). -/
def State.tPost (s : State) (n : Nat) (t : TSend) : Option State :=
  let x := s.sl n
  match t.eth with
  | some op =>
    let k := Tbl.get 0 x.psn t.rank
    let len := match op with | .read _ l => l | _ => 0
    let s := s.setSl n { x with psn := Tbl.set 0 x.psn t.rank (k + 1)
                                ops := x.ops ++ [{ eth := true, k, rank := t.rank, va := t.va, dst := t.dst, len, wr := t.dst.isNone }] }
    some (s.roceOut n t.rank op)
  | none =>
    if t.gdn = s.gdn then
      if t.kind ≠ 0 ∧ (s.frameMigrating t.pa).isSome then none
      else match s.fabMem t.kind t.opx t.atype t.pa x.stamp t.data with
      | (.ok bs, s) => some (match t.dst with | some d => s.tLand n d bs | none => s)
      | (.error c, s) => some (s.tFault n 7 c t.va t.dst.isNone)
    else match s.request (.slot n) t.kind t.gdn t.opx t.atype t.pa x.edge t.data t.va with
      | some (tag, s) =>
        some (s.modSl n fun x => { x with ops := x.ops ++ [{ eth := false, k := tag, rank := t.rank, va := t.va, dst := t.dst,
                                                             len := 2 ^ (t.opx % 8), wr := t.dst.isNone }] })
      | none => none

/-- One operation is sent, or fails; none while it waits. -/
def State.tSend (s : State) (n : Nat) (t : TSend) : Option State :=
  match s.tPacket (s.sl n) t with
  | .ok (some t) => s.tPost n t
  | .ok none => some s
  | .error c => some (s.tFault n 7 c t.va true)

/-- The Migrating page whose frame an operation of a schedule would write here (R264). -/
def State.tSendWaits (s : State) (x : TSlot) (t : TSend) : Option Nat :=
  match s.tPacket x t with
  | .ok (some t) => if t.eth.isNone ∧ t.gdn = s.gdn ∧ t.kind ≠ 0 then s.frameMigrating t.pa else none
  | _ => none

/-- Operations are sent in program order while there is room; the rest wait, where a frame migrates behind the writes that came to it before (R264). -/
def State.tSendAll (s : State) (n : Nat) : List TSend → State
  | [] => s.modSl n fun x => { x with todo := [] }
  | t :: ts =>
    if (s.sl n).st = 7 then s
    else match s.tSend n t with
      | some s => s.tSendAll n ts
      | none =>
        let s := s.modSl n fun x => { x with todo := t :: ts }
        match s.tSendWaits (s.sl n) t with
        | some key => s.lateAt key (.sends n)
        | none => s

/-- The operations of a slot that wait are sent while there is room. -/
def State.tFlush (s : State) (n : Nat) : State := s.tSendAll n (s.sl n).todo

/-- Operations are added to those that a slot sends. -/
def State.tQueue (s : State) (n : Nat) (ts : List TSend) : State := s.tSendAll n ((s.sl n).todo ++ ts)

/-- A piece sent to a window of a peer, as fabric stores or as an RDMA WRITE, with its signal after it (R385). -/
def State.tPush (s : State) (x : TSlot) (rank va e sig : Nat) (data : List Byte) : Except TStop (List TSend) × State :=
  let gdn := (x.peer rank).2.1
  if gdn / 2 ^ 10 ≠ s.pkg.pod then
    (.ok [{ rank, gdn, kind := 2, pa := 0, va, eth := some (.write va e data) }, s.tSig x rank sig 1], s)
  else match s.tResolve (fun s a => s.tWindow x.cid x.die a gdn false true) (tCuts 4096 (data.length / 4096 + 2) va data.length) with
    | (.error f, s) => (.error f, s)
    | (.ok rs, s) =>
      let (ts, _) := rs.foldl (fun (acc : List TSend × List Byte) r =>
        (acc.1 ++ [{ rank, gdn, kind := 2, pa := r.2.1, va := r.1, data := acc.2.take r.2.2 }], acc.2.drop r.2.2)) ([], data)
      (.ok (ts ++ [s.tSig x rank sig 1]), s)

/-! ### Data words (R382 to R385) -/

/-- The element type of a reducing word (R377). -/
def tTy (xf : BitVec 4) : Ty := match xf.toNat with | 0 => .bf16 | 1 => .f16 | 2 => .f32 | _ => .f64

/-- The atomic whose arithmetic a reducing word uses (R384): 0 add, 2 max, 1 min. -/
def tAop (xo : BitVec 2) : Nat := match xo.toNat with | 0 => 0 | 1 => 2 | _ => 1

/-- The elements of a reduction. -/
def tReduce (f : TC) (as bs : List Nat) : List Nat := (as.zip bs).map fun x => atomNew (tAop f.xo) (tTy f.xf) x.1 x.2 0

/-- TRUSS_COPY (R382). -/
def execTrussCopy (f : TC) (s : State) : Host.Outcome State Fault Refusal :=
  runTruss (fun _ x s =>
    let a := f.ca.toNat
    let b := f.cb.toNat
    if !x.chunksOk 1 a false b false then .fault s 3
    else
      let n := (x.chunk a).size
      let va := (x.chunk b).piece (x.gr f.rb)
      match s.tRead x.cid x.die 1 ((x.chunk a).piece (x.gr f.ra)) n with
      | (.error (c, v), s) => .fault s (tReason c) v
      | (.ok vs, s) => match s.tWritable x.cid x.die 1 va n with
        | (.fail c v, s) => .fault s (tReason c) v true
        | (.wait k, s) => s.tHeld x k
        | (.ok, s) => .next (s.tWrite x 1 va vs)) s

/-- The local part of `RED` and `REDSEND` (R384): the reads, the reduction, and the check of the writes; then what follows. -/
def tRed (f : TC) (x : TSlot) (s : State) (k : State → Nat → Nat → List Nat → TRes) : TRes :=
  let e := (tTy f.xf).bits / 8
  let a := x.chunk f.ca.toNat
  let va := (x.chunk f.cb.toNat).piece (x.gr f.rb)
  match s.tRead x.cid x.die e (a.piece (x.gr f.ra)) (a.size / e) with
  | (.error (c, v), s) => .fault s (tReason c) v
  | (.ok as, s) => match s.tRead x.cid x.die e va (a.size / e) with
    | (.error (c, v), s) => .fault s (tReason c) v
    | (.ok bs, s) => match s.tWritable x.cid x.die e va (a.size / e) with
      | (.fail c v, s) => .fault s (tReason c) v true
      | (.wait k, s) => s.tHeld x k
      | (.ok, s) => k s e va (tReduce f as bs)

/-- TRUSS_RED (R384). -/
def execTrussRed (f : TC) (s : State) : Host.Outcome State Fault Refusal :=
  runTruss (fun _ x s =>
    if !x.chunksOk ((tTy f.xf).bits / 8) f.ca.toNat false f.cb.toNat false then .fault s 3
    else tRed f x s fun s e va vs => .next (s.tWrite x e va vs)) s

/-- TRUSS_REDSEND (R384): the result goes to the window chunk CB + 1 of the peer as well. -/
def execTrussRedsend (f : TC) (s : State) : Host.Outcome State Fault Refusal :=
  runTruss (fun n x s =>
    let e := (tTy f.xf).bits / 8
    let w := f.cb.toNat + 1
    let rank := (x.gr f.rp).toNat
    if !x.chunksOk e f.ca.toNat false f.cb.toNat false || !x.windowOk e w then .fault s 3
    else if x.size ≤ rank then .fault s 2
    else tRed f x s fun s e va vs =>
      match s.tPush x rank ((x.chunk w).piece (x.gr f.rb)) e f.sg.toNat (vs.flatMap (natLe e ·)) with
      | (.error z, s) => s.tStopped x z true
      | (.ok ts, s) => .next ((s.tWrite x e va vs).tQueue n ts)) s

/-- TRUSS_SEND (R382). -/
def execTrussSend (f : TC) (s : State) : Host.Outcome State Fault Refusal :=
  runTruss (fun n x s =>
    let a := x.chunk f.ca.toNat
    let rank := (x.gr f.rp).toNat
    if !x.chunksOk 1 f.ca.toNat false f.cb.toNat true then .fault s 3
    else if x.size ≤ rank then .fault s 2
    else match s.tRead x.cid x.die 1 (a.piece (x.gr f.ra)) a.size with
      | (.error (c, v), s) => .fault s (tReason c) v
      | (.ok vs, s) =>
        match s.tPush x rank ((x.chunk f.cb.toNat).piece (x.gr f.rb)) 1 f.sg.toNat (vs.map (.ofNat 8 ·)) with
        | (.error z, s) => s.tStopped x z true
        | (.ok ts, s) => .next (s.tQueue n ts)) s

/-- Reads of a slot's RECV are outstanding or wait to be sent. -/
def TSlot.reading (x : TSlot) : Bool := (x.ops.any fun o => o.dst.isSome) || x.todo.any fun t => t.dst.isSome

/-- A `RECV` is complete: its copy edge, which the schedule adopts (R386, R398). -/
def State.recvDone (s : State) (n va : Nat) : State :=
  let x := s.sl n
  let (id, s) := s.newEdge x.die x.cid { kind := 4, waiter := engineLid x.eng, prod := noLid, obj := va, pred := Tbl.get 0 x.sigEdge 16 }
  s.modSl n fun x => { x with edge := id, st := 4, wait := .none }

/-- The reads of a `RECV` from a peer: fabric loads, or one RDMA READ. -/
def State.tPull (s : State) (x : TSlot) (rank va dst n : Nat) : Except TStop (List TSend) × State :=
  let gdn := (x.peer rank).2.1
  if gdn / 2 ^ 10 ≠ s.pkg.pod then (.ok [{ rank, gdn, kind := 0, pa := 0, va, dst := some dst, eth := some (.read va n) }], s)
  else match s.tResolve (fun s a => s.tWindow x.cid x.die a gdn true false) (tUnits n va dst n) with
    | (.error f, s) => (.error f, s)
    | (.ok rs, s) =>
      (.ok (rs.map fun r => { rank, gdn, kind := 0, opx := unitCode r.2.2, pa := r.2.1, va := r.1
                              dst := some ((dst + (r.1 + 2 ^ 56 - va) % 2 ^ 56) % 2 ^ 56) }), s)

/-- The edge id that data of a rank carry before any response has come: of its own schedule on this device, else a root of its device. -/
def State.peerEdge (s : State) (x : TSlot) (rank : Nat) : Nat :=
  let (pslot, gdn, _) := x.peer rank
  if gdn = s.gdn then (s.sl pslot).edge else gdn * 2 ^ 28

/-- TRUSS_RECV (R382, R385): the schedule waits until every local write is performed. -/
def execTrussRecv (f : TC) (s : State) : Host.Outcome State Fault Refusal :=
  runTruss (fun n x s =>
    let b := x.chunk f.cb.toNat
    let rank := (x.gr f.rp).toNat
    let dst := b.piece (x.gr f.rb)
    if !x.chunksOk 1 f.ca.toNat true f.cb.toNat false then .fault s 3
    else if x.size ≤ rank then .fault s 2
    else match s.tWritable x.cid x.die 1 dst b.size with
      | (.fail c v, s) => .fault s (tReason c) v true
      | (.wait k, s) => s.tHeld x k
      | (.ok, s) =>
        match s.tPull x rank ((x.chunk f.ca.toNat).piece (x.gr f.ra)) dst b.size with
        | (.error z, s) => s.tStopped x z false
        | (.ok ts, s) =>
          let e := s.peerEdge x rank
          let s := (s.modSl n fun x => { x with sigEdge := Tbl.set 0 x.sigEdge 16 e }).tQueue n ts
          if (s.sl n).st = 7 then .hold s
          else if (s.sl n).reading then .hold (s.modSl n fun x => { x with st := 5, wait := .recv dst, waitAt := s.time })
          else .next (s.recvDone n dst)) s

/-- The members of a multicast group that are valid: number in the group, frame, device (R362; log 122). -/
def State.mcMembers (s : State) (group : Nat) : List (Nat × Nat × Nat) :=
  (upto 64).filterMap fun m => let (v, frame, gdn) := s.mcEntry group m; if v then some (m, frame, gdn) else none

/-- The packets of an `MCAST` for one member: the data, then the signal. -/
def tMemberSends (group sig : Nat) (data : List Byte) (rs : List (Nat × Nat × Nat)) (m : Nat) : List TSend :=
  let mc := some (group, m)
  let ts := (rs.foldl (fun (acc : List TSend × List Byte) r =>
    (acc.1 ++ [{ rank := 0, gdn := 0, kind := 5, opx := unitCode r.2.2, pa := r.2.1, va := r.1, data := acc.2.take r.2.2, mc }],
      acc.2.drop r.2.2)) ([], data)).1
  ts ++ [{ rank := 0, gdn := 0, kind := 4, pa := sig, mc }]

/-- TRUSS_MCAST (R382); a group without a valid member fails with code 5 (R362, R388). -/
def execTrussMcast (f : TC) (s : State) : Host.Outcome State Fault Refusal :=
  runTruss (fun n x s =>
    let a := x.chunk f.ca.toNat
    let group := (x.gr f.rp).toNat
    let ms := s.mcMembers group
    if !x.chunksOk 1 f.ca.toNat false f.cb.toNat true then .fault s 3
    else if 4096 ≤ group || ms.any (fun m => m.2.2 / 2 ^ 10 != s.pkg.pod || (x.rankOf m.2.2).isNone) then .fault s 2
    else match s.tRead x.cid x.die 1 (a.piece (x.gr f.ra)) a.size with
      | (.error (c, v), s) => .fault s (tReason c) v
      | (.ok vs, s) =>
        let va := (x.chunk f.cb.toNat).piece (x.gr f.rb)
        match s.tResolve (fun s b => s.tMulti x.cid x.die b group) (tUnits a.size va va a.size) with
        | (.error z, s) => s.tStopped x z true
        | (.ok rs, s) =>
          if ms.isEmpty then .hold (s.tFault n 7 5 va true)
          else .next (s.tQueue n (ms.flatMap fun m => tMemberSends group f.sg.toNat (vs.map (.ofNat 8 ·)) rs m.1))) s

/-! ### Signals, barriers, the end of a run (R386, R387) -/

/-- A count of `WAIT` or `SIG` is in its range. -/
def countOk (i : Int) : Bool := 1 ≤ i && i < 2 ^ 32

/-- TRUSS_SIG (R386). -/
def execTrussSig (f : TB) (s : State) : Host.Outcome State Fault Refusal :=
  runTruss (fun n x s =>
    let rank := (x.gr f.a).toNat
    if !countOk f.imm.toInt then .fault s 1
    else if x.size ≤ rank then .fault s 2
    else .next (s.tQueue n [s.tSig x rank f.d.toNat f.imm.toInt.toNat])) s

/-- Takes a count from a signal when it has reached it. -/
def TSlot.takeSig (x : TSlot) (sig n : Nat) : Option TSlot :=
  if n ≤ x.sig.getD sig 0 then some { x with sig := setAt 0 x.sig sig (x.sig.getD sig 0 - n) } else none

/-- TRUSS_WAIT (R386). -/
def execTrussWait (f : TB) (s : State) : Host.Outcome State Fault Refusal :=
  runTruss (fun n x s =>
    if !countOk f.imm.toInt then .fault s 1
    else match x.takeSig f.d.toNat f.imm.toInt.toNat with
      | some x => .next (s.setSl n x)
      | none => .hold (s.setSl n { x with st := 5, wait := .signal f.d.toNat f.imm.toInt.toNat, waitAt := s.time })) s

/-- The rounds of a barrier: the logarithm of the size, rounded up. -/
def barRounds (size : Nat) : Nat := ((upto 11).find? fun r => decide (size ≤ 2 ^ r)).getD 11

/-- The barrier goes on from a round whose increment is sent: the rounds whose increment has come pass, each sending the next one's; the
round that it waits in, or none once it is complete.  The increment of round r adds 8^r to s15. -/
def State.barStep (s : State) (n : Nat) : Nat → Nat → Option Nat × State
  | 0, r => (some r, s)
  | fuel + 1, r =>
    let x := s.sl n
    if x.st = 7 then (some r, s)
    else if barRounds x.size ≤ r then (none, s.setSl n { x with barn := x.barn + 1 })
    else if x.sig.getD 15 0 / 8 ^ r % 8 = 0 then (some r, s)
    else
      let s := s.setSl n { x with sig := setAt 0 x.sig 15 (x.sig.getD 15 0 - 8 ^ r) }
      let s := if r + 1 < barRounds x.size then s.tQueue n [s.tSig x ((x.rank + 2 ^ (r + 1)) % x.size) 15 (8 ^ (r + 1))] else s
      s.barStep n fuel (r + 1)

/-- TRUSS_BAR (R386). -/
def execTrussBar (_f : TB) (s : State) : Host.Outcome State Fault Refusal :=
  runTruss (fun n x s =>
    let s := if 0 < barRounds x.size then s.tQueue n [s.tSig x ((x.rank + 1) % x.size) 15 1] else s
    match s.barStep n 12 0 with
    | (none, s) => .next s
    | (some r, s) => .hold (s.modSl n fun x => if x.st = 7 then x else { x with st := 5, wait := .bar r, waitAt := s.time })) s

/-- TRUSS_FIN (R387): step 1; the run ends once every remote operation is acknowledged. -/
def execTrussFin (f : TB) (s : State) : Host.Outcome State Fault Refusal :=
  runTruss (fun n x s =>
    .hold (s.setSl n { x with wait := .fin (if f.imm.getLsbD 24 then some (f.imm.toNat % 2 ^ 24) else none) })) s

end Sys2Proof.Machine
end

