-- ==== Sys2Proof/Machine/Schedule.lean ====
section
/-!
DEFINITION. Schedules (R369 to R376, R386 to R388): loading, arming, the engines, waits, the end of a run, the watchdog, and what arrives on
RoCEv2 queue pairs.
-/
namespace Sys2Proof.Machine

/-! ### Arming (R374) -/

/-- A slot is armed: its registers cleared, g0 the payload. -/
def TSlot.arm (x : TSlot) (payload edge at' : Nat) (armer : Option (Nat × Nat)) : TSlot :=
  { x with st := 3, g := .ofNat 64 payload :: List.replicate 15 0, pc := 0, edge := edge % 2 ^ 48, armer, armedAt := at', wait := .none }

/-- A slot is armed now. -/
def State.armSlot (s : State) (n payload edge : Nat) (armer : Option (Nat × Nat)) : State :=
  { s with fresh := s.fresh + 1 }.modSl n fun x => x.arm payload edge s.fresh armer

/-- A record counts for a schedule bound to its node: it arms the slot, or holds an arming. -/
def State.schedRec (s : State) (n payload edge : Nat) : State :=
  let x := s.sl n
  let c := min (x.recs + 1) 65535
  let s := s.setSl n { x with recs := c }
  if c < x.scount then s
  else if x.st = 2 ∨ x.st = 6 then (s.setSl n { x with recs := c - x.scount }).armSlot n payload edge none
  else if (x.st = 3 ∨ x.st = 4 ∨ x.st = 5) ∧ x.pend.isNone then s.setSl n { x with recs := c, pend := some (payload, edge) }
  else s

/-- REC_ACCEPT (R243, R308, R374): the oldest record in flight whose node is defined, for its schedule or its gather; it waits
while a load is in progress on that schedule's slot (R375). -/
def execRecAccept (k : Nat) (s : State) : Host.Outcome State Fault Refusal :=
  .next (match s.recs[k]? with
    | none => s
    | some r =>
      let t : State := { s with recs := s.recs.eraseIdx k }
      match s.slotOfNode r.dies r.node with
      | some n => if (s.sl n).st = 1 then s else t.schedRec n (r.body.getD 0 0) (r.body.getD 1 0)
      | none => if (Tbl.get {} s.node (r.dies * 256 + r.node)).def'.isSome then t.gatherRec r.dies r.node r.body else s)

/-! ### Loading (R371 to R373) -/

/-- A code object as read. -/
structure SchedObj where
  words : List DWord
  nv : Bool
  node : Nat
  scount : Nat
  skid : DWord
  deriving DecidableEq, Repr

/-- A branch word and its offset. -/
def branchOff : Instr → Option Int
  | .trussBra f | .trussBnz f | .trussLoop f => some f.imm.toInt
  | _ => none

/-- The decode checks of R375 on word i of n. -/
def tWordOk (n i : Nat) (w : DWord) : Bool :=
  match decodeTruss w with
  | none => false
  | some k => match branchOff k with
    | some off => let t := (i : Int) + off; 0 ≤ t && t < n
    | none => true

/-- Reads a code object: BADFIELD where its header is not as R371 gives. -/
def State.readSched (s : State) (q cid va : Nat) : Except Nat SchedObj × State :=
  match s.cpWords (some q) cid va 4 with
  | (none, s) => (.error qAccess, s)
  | (some h, s) =>
    let w (i : Nat) : Nat := h.getD i 0
    let n := w 1 % 2 ^ 13
    if w 0 % 2 ^ 32 ≠ 0x53544E58 ∨ bitsOf (w 0) 32 16 ≠ 1 ∨ n < 1 ∨ 4096 < n then (.error qBadfield, s)
    else match s.cpWords (some q) cid (va + 0x40) n with
      | (none, s) => (.error qAccess, s)
      | (some ws, s) =>
        (.ok { words := ws.map (.ofNat 64 ·), nv := (w 2).testBit 8, node := w 2 % 2 ^ 8, scount := bitsOf (w 2) 16 16
               skid := .ofNat 64 (w 3) }, s)

/-- A communicator as read: rank, size, entries `PSLOT`, `GDN`, `PIDX`. -/
def State.readComm (s : State) (q cid va : Nat) : Except Nat (Nat × Nat × List (Nat × Nat × Nat)) × State :=
  match s.cpWords (some q) cid va 1 with
  | (none, s) => (.error qAccess, s)
  | (some h, s) =>
    let w := h.getD 0 0
    let rank := w % 2 ^ 10
    let size := bitsOf w 16 11
    if size < 1 ∨ 1024 < size ∨ size ≤ rank then (.error qBadfield, s)
    else match s.cpWords (some q) cid (va + 16) (2 * size) with
      | (none, s) => (.error qAccess, s)
      | (some ws, s) =>
        (.ok (rank, size, (upto size).map fun i =>
          let a := ws.getD (2 * i) 0
          (bitsOf a 20 6, a % 2 ^ 20, ws.getD (2 * i + 1) 0 % 2 ^ 16)), s)

/-- Words of an engine's store that other slots hold, or would hold again if a load in progress failed. -/
def State.storeUsed (s : State) (eng slot : Nat) : Nat :=
  ((s.slot.filter fun x => x.1 != slot && x.2.eng == eng && x.2.holds).map fun x => x.2.words.length).sum

/-- Checks 3 to 7 of R373 on what was read. -/
def State.schedOk (s : State) (dies slot eng : Nat) (o : SchedObj) (rank : Nat) (comm : List (Nat × Nat × Nat)) : Bool :=
  decide (s.storeUsed eng slot + o.words.length ≤ 8192) &&
    ((upto o.words.length).zip o.words).all (fun (x : Nat × DWord) => tWordOk o.words.length x.1 x.2) &&
    (let me := comm.getD rank (0, 0, 0); me.1 == slot && me.2.1 == s.gdn) &&
    comm.all (fun c => if c.2.1 / 2 ^ 10 = s.pkg.pod then decide (c.2.1 % 2 ^ 10 < 993) else decide (c.2.2 < 4096)) &&
    (!o.nv || ((Tbl.get {} s.node (dies * 256 + o.node)).def'.isNone &&
      !(s.slot.any fun x => x.1 != slot && x.2.nv && x.2.node == o.node && x.2.holds && (s.cx x.2.cid).dies == dies)))

/-- Reads a parameter block. -/
def State.readParams (s : State) (q cid va : Nat) : Except Nat (List DWord) × State :=
  match s.cpWords (some q) cid va 32 with
  | (none, s) => (.error qAccess, s)
  | (some ws, s) => (.ok (ws.map (.ofNat 64 ·)), s)

/-- The rules of a LOADSCHED (R373), in its slot as it was before. -/
def loadOwn (q : Nat) (p : Packet) (s : State) (cid idx : Nat) : Begun :=
  let slot := bitsOf (pkWord p 0) 16 6
  let eng := bitsOf (pkWord p 0) 24 4
  let dies := (s.cx cid).dies
  let x := s.sl slot
  if (x.st ≠ 0 ∧ x.cid ≠ cid) ∨ !inMask dies (eng / 4) ∨ pkAddr p 1 % 64 ≠ 0 ∨ pkAddr p 2 % 16 ≠ 0 ∨ pkAddr p 3 % 8 ≠ 0 then
    (.error qBadfield, s)
  else match s.readSched q cid (pkAddr p 1) with
    | (.error e, s) => (.error e, s)
    | (.ok o, s) => match s.readParams q cid (pkAddr p 3) with
      | (.error e, s) => (.error e, s)
      | (.ok ps, s) => match s.readComm q cid (pkAddr p 2) with
        | (.error e, s) => (.error e, s)
        | (.ok (rank, size, comm), s) =>
          if !s.schedOk dies slot eng o rank comm then (.error qBadfield, s)
          else (.ok (atOnce q cid idx p fun s => s.setSl slot
            { st := 2, cid, eng, rank, size, comm, params := ps, words := o.words, nv := o.nv, node := o.node
              scount := o.scount, skid := o.skid, edge := (s.qv q).edge, runs := x.runs, trap := x.trap }), s)

/-- The beginning of a LOADSCHED (R373, R375): its slot, Empty or of the packet's context, is Loaded until the checks are made. -/
def loadBegin (q : Nat) (p : Packet) (s : State) (cid _idx : Nat) : Begun :=
  let slot := bitsOf (pkWord p 0) 16 6
  let x := s.sl slot
  if x.st ≠ 0 ∧ x.cid ≠ cid then (.error qBadfield, s)
  else (.ok (0, fun s => s.setSl slot { x with st := 1, loader := some (q, x.st) }), s)

/-- LOADSCHED (R373, R375): it waits while its slot is Armed, Running or Waiting, or another queue loads it; it makes its slot Loaded, and then, in a
later step, its checks leave it Bound or as it was. -/
def execLoadsched (q : Nat) (p : Packet) (s : State) : Host.Outcome State Fault Refusal :=
  .next (
    let x := s.sl (bitsOf (pkWord p 0) 16 6)
    if s.slotBusy p then s
    else match x.loader with
      | none => s.beginPkt q p (loadBegin q p)
      | some (q', _) => if q' = q ∧ s.standsAt q 1 then (s.unload q).beginOwn q (loadOwn q p) else s)

/-- The rules of a RUNSCHED (R374); a `SPAR` of 0 keeps the slot's parameters (R370). -/
def runOwn (q : Nat) (p : Packet) (s : State) (cid idx : Nat) : Begun :=
  let slot := bitsOf (pkWord p 0) 16 6
  let x := s.sl slot
  let go (ps : Option (List DWord)) (s : State) : Begun :=
    (.ok (1, fun s =>
      let s : State := { s with pkts := s.pkts ++ [outPkt q idx cid p true] }
      (s.modSl slot fun x => { x with params := ps.getD x.params }).armSlot slot 0 (s.qv q).edge (some (q, idx))), s)
  if x.st < 2 ∨ x.st = 7 ∨ x.cid ≠ cid ∨ pkAddr p 1 % 8 ≠ 0 then (.error qBadfield, s)
  else if pkAddr p 1 = 0 then go none s
  else match s.readParams q cid (pkAddr p 1) with
    | (.error e, s) => (.error e, s)
    | (.ok ps, s) => go (some ps) s

/-- RUNSCHED (R374): it waits while its slot is Armed, Running or Waiting. -/
def execRunsched (q : Nat) (p : Packet) (s : State) : Host.Outcome State Fault Refusal :=
  .next (if s.slotBusy p && (s.sl (bitsOf (pkWord p 0) 16 6)).cid == (s.qv q).cid then s else s.beginPkt q p (runOwn q p))

/-! ### Engines (R369, R375) -/

/-- The earlier armed of two slots. -/
def earlierArmed (a b : Nat × TSlot) : Nat × TSlot := if b.2.armedAt < a.2.armedAt then b else a

/-- SCHEDULE_START (R369): a free engine takes the slot armed earliest. -/
def execScheduleStart (eng : Nat) (s : State) : Host.Outcome State Fault Refusal :=
  .next (
    if s.slot.any fun x => x.2.eng == eng && (x.2.st == 4 || x.2.st == 5) then s
    else match s.slot.filter fun x => x.2.eng == eng && x.2.st == 3 with
      | [] => s
      | x :: xs => s.modSl (xs.foldl earlierArmed x).1 fun y => { y with st := 4 })

/-- The edge of a wait that is satisfied (R386, R398), which the schedule adopts. -/
def State.waitEdge (s : State) (n kind obj pred : Nat) : State :=
  let x := s.sl n
  let (id, s) := s.newEdge x.die x.cid { kind, waiter := engineLid x.eng, prod := noLid, obj, pred }
  s.modSl n fun x => { x with edge := id, st := 4, wait := .none }

/-- TRUSS_WAKE (R386): a slot whose condition is met goes on. -/
def execTrussWake (n : Nat) (s : State) : Host.Outcome State Fault Refusal :=
  .next (
    let x := s.sl n
    if x.st ≠ 5 then s
    else match x.wait with
      | .signal sig c => match x.takeSig sig c with
        | some x => ((s.setSl n x).waitEdge n 6 (16 * n + sig) (Tbl.get 0 x.sigEdge sig)).tPc n 1
        | none => s
      | .bar r =>
        (match s.barStep n 12 r with
        | (none, s) => (s.waitEdge n 1 n (Tbl.get 0 (s.sl n).sigEdge 15)).tPc n 1
        | (some r, s) => s.modSl n fun x => if x.st = 7 then x else { x with wait := .bar r })
      | .recv va => if x.reading then s else (s.recvDone n va).tPc n 1
      | _ => s)

/-- SCHEDULE_DONE (R387): once every remote operation of the run is acknowledged, the publish, then Done, then the packet's completion; a
held arming is then made. -/
def execScheduleDone (n : Nat) (s : State) : Host.Outcome State Fault Refusal :=
  .next (
    let x := s.sl n
    match x.wait with
    | .fin pub =>
      if x.st ≠ 4 ∨ !x.ops.isEmpty ∨ !x.todo.isEmpty then s
      else
        let s := match pub with | some h => s.publish (s.cx x.cid).asid h x.stamp | none => s
        let s := s.setSl n { x with st := 6, runs := (x.runs + 1) % 2 ^ 64, wait := .none, armer := none }
        let s := match x.armer with | some (q, i) => s.packetDone q i | none => s
        match x.pend with
        | some (payload, edge) => (s.modSl n fun y => { y with pend := none, recs := y.recs - y.scount }).armSlot n payload edge none
        | none => s
    | _ => s)

/-- SCHEDULE_WATCHDOG (R376). -/
def execScheduleWatchdog (n : Nat) (s : State) : Host.Outcome State Fault Refusal :=
  .next (
    let x := s.sl n
    if x.st = 5 ∧ s.pkg.twdog ≠ 0 ∧ x.waitAt + s.pkg.twdog * 1000 < s.time then s.tFault n 9 0 0 false else s)

/-! ### RoCEv2 (R385, R386, R388) -/

/-- The NAK code that fits an access that failed. -/
def roceCode (code : Nat) : Nat := if code = cEccMem then 3 else 5

/-- Elements of an RDMA WRITE, on the live frames (R385). -/
def State.roceWrite (s : State) (x : TSlot) (e va : Nat) : List (List Byte) → State
  | [] => s
  | b :: bs =>
    (match s.engAcs x.cid x.die va false true true with
      | (.ok _ (.loc l), s) => s.wr l b 0
      | (.ok _ (.dev pa), s) => s.devWrite pa b.length (leNat b)
      | (_, s) => s).roceWrite x e ((va + e) % 2 ^ 56) bs

/-- An operation of this slot on a queue pair is over. -/
def TSlot.opEnd (x : TSlot) (rank k : Nat) : TSlot := { x with ops := x.ops.filter fun o => !(o.eth && o.rank == rank && o.k == k) }

/-- The operation of a slot on a queue pair. -/
def TSlot.opOf (x : TSlot) (rank k : Nat) : Option TOp := x.ops.find? fun o => o.eth && o.rank == rank && o.k == k

/-- An operation, or the answer to one, on the queue pair of a slot and a rank. -/
def State.roceIn (s : State) (w : Wire) (n rank : Nat) (op : RoceOp) : State :=
  let x := s.sl n
  let k := Tbl.get 0 x.rcv rank
  let t : State := s.setSl n { x with rcv := Tbl.set 0 x.rcv rank (k + 1) }
  let again (key : Nat) : State := s.lateAt key (.event (.roceReceive n rank ⟨w, op⟩))
  let up := decide (2 ≤ x.st) && x.st != 7
  match op with
  | .write va e data =>
    if !up then s.roceOut n rank (.fail k 5)
    else
      let e := max 1 e
      match t.tWritable x.cid x.die e (va % 2 ^ 56) (data.length / e) true with
      | (.ok, t) => (t.roceWrite x e (va % 2 ^ 56) (chunksOf e (data.length / e) data)).roceOut n rank (.ack k)
      | (.wait k, _) => again k
      | (.fail c _, t) => t.roceOut n rank (.fail k (roceCode c))
  | .read va len =>
    if !up then s.roceOut n rank (.fail k 5)
    else match t.tRead x.cid x.die 1 (va % 2 ^ 56) len true with
      | (.ok vs, t) => t.roceOut n rank (.resp k (vs.map (.ofNat 8 ·)))
      | (.error (c, _), t) => t.roceOut n rank (.fail k (roceCode c))
  | .send sig count edge =>
    (match (if up ∧ sig < 16 ∧ rank < x.size then t.signalIn n sig count (x.peer rank).2.1 edge else none) with
    | some t => t.roceOut n rank (.ack k)
    | none => s.roceOut n rank (.fail k 5))
  | .ack j => s.setSl n (x.opEnd rank j)
  | .resp j data =>
    (match x.opOf rank j with
    | some o => (match o.dst with
      | some d => (match s.tWritable x.cid x.die 1 d data.length with
        | (.wait k, _) => again k
        | (.ok, s) => (s.tLand n d data).modSl n (·.opEnd rank j)
        | (.fail c v, s) => s.tFault n (tReason c) 0 v true)
      | none => s.setSl n (x.opEnd rank j))
    | none => s)
  | .fail j code => if (x.opOf rank j).isSome then let o := (x.opOf rank j).getD { eth := true, k := j }; s.tFault n 7 code o.va o.wr
                    else s

/-- ROCE_RECEIVE (R368, R385, R386): a packet of a queue pair that MACsec lets pass. -/
def execRoceReceive (n rank : Nat) (op : RoceIn) (s : State) : Host.Outcome State Fault Refusal :=
  .next (match s.ethIn op.wire with
    | (s, true) => s.roceIn op.wire n rank op.op
    | (s, false) => s)

end Sys2Proof.Machine
end

