-- ==== Sys2Proof/Machine/Fabric.lean ====
section
/-!
DEFINITION. The pod fabric at this device (R345 to R367, R386, R399): links, custody, the destination's order, responses, and what a response
does for the owner of its request.
-/
namespace Sys2Proof.Machine

/-- A member's incarnation is learned (R361): a new one ends the order and the stored responses kept for it, and withdraws its intents (R340). -/
def State.learnInc (s : State) (m inc : Nat) : State :=
  let gone (i : Intent) : Bool := !i.own && i.inc != inc % 2 ^ 8 && i.gdn == s.pkg.pod * 2 ^ 10 + m
  { s with fab := { s.fab with inc := Tbl.set 0 s.fab.inc m (inc % 2 ^ 8), src := Tbl.set {} s.fab.src m {} }
           pow := { s.pow with intents := s.pow.intents.filter fun (i : Intent) => !gone i } }

/-- An incarnation loaded without comparison (R361): one that differs from the entry is learned. -/
def State.loadInc (s : State) (m inc : Nat) : State := if s.incOf m = inc % 2 ^ 8 then s else s.learnInc m inc

/-- A received incarnation is newer than the entry. -/
def incNewer (i e : Nat) : Bool := let d := (i + 256 - e % 256) % 256; 1 ≤ d && d ≤ 127
/-- A received incarnation is older than the entry. -/
def incOlder (i e : Nat) : Bool := 128 ≤ (i + 256 - e % 256) % 256

/-- The source's incarnation of a packet received is learned when it is newer (R361): of a member of this pod other than this device. -/
def State.learnSrc (s : State) (pk : FabPkt) : State :=
  let m := pk.sgdn % 2 ^ 10
  if pk.sgdn / 2 ^ 10 = s.pkg.pod ∧ pk.sgdn ≠ s.gdn ∧ incNewer pk.sinc (s.incOf m) then s.learnInc m pk.sinc else s

/-! ### Custody (R354, R356, R360) -/

/-- The custody ACK of a packet goes back on the port that the packet came by. -/
def State.takeCustody (s : State) (p : Nat) (pk : FabPkt) : State := s.emit p { pk with kind := 8, opx := 0, data := [] }

/-- The candidates of a response, a minimal route first; one that leaves on the port that failed only when there is no other. -/
def State.respRoute (s : State) (dst avoid : Nat) : Option (Nat × Nat) :=
  let up := (s.vias dst).filter fun v => s.portUp (s.viaRoute dst v).1
  ((up.find? fun v => (s.viaRoute dst v).1 != avoid).or up.head?).map fun v => (v, (s.viaRoute dst v).1)

/-- A response leaves for its destination, on the minimal route or another whose first link is Up; with none it waits in custody. -/
def State.sendResp (s : State) (pk : FabPkt) (avoid : Nat := selfPort) : State :=
  let dst := pk.dgdn % 2 ^ 10
  match s.respRoute dst avoid with
  | some (via, port) => s.hold port { pk with via }
  | none => s.hold (s.portTo dst) { pk with via := noVia }

/-- A response to a request: its kind, `OPX`, edge id and data, with the request's tag and sequence. -/
def State.answer (s : State) (pk : FabPkt) (kind opx edge : Nat) (data : List Byte) : FabPkt :=
  { kind, via := noVia, sinc := s.pkg.inc, dinc := s.incOf (pk.sgdn % 2 ^ 10), seq := pk.seq, tag := pk.tag, sgdn := s.gdn, dgdn := pk.sgdn, hop := 0
    opx, pa := 0, edge, atype := 0, data }

/-- A NAK of a packet that this device does not carry on, to its source. -/
def State.nakBack (s : State) (pk : FabPkt) (code : Nat) (data : List Byte := []) : State :=
  if pk.sgdn = s.gdn then { s with agenda := s.agenda ++ [Move.event (.nakArrive ⟨selfPort, s.answer pk 9 code 0 data⟩)] }
  else s.sendResp (s.answer pk 9 code 0 data)

/-- A packet whose link is not Up, or whose second wait has elapsed, is given up at its port (R356): a request comes back as LINKDOWN, a response
takes another route. -/
def State.giveUp (s : State) (c : Cust) : State :=
  let s : State := { s with fab := { s.fab with cust := s.fab.cust.erase c } }
  if isRequest c.pk then s.nakBack c.pk 2 else s.sendResp c.pk c.port

/-- A port's link goes down: every packet that it holds in custody is given up. -/
def State.linkDown (s : State) (p : Nat) : State := (s.fab.cust.filter fun c => c.port == p).foldl State.giveUp s

/-- A packet for another device goes on (R348, R356, R360): on a port that is Up, or Retraining, where it waits in custody (R352). -/
def State.forward (s : State) (p : Nat) (pk : FabPkt) : State :=
  let s := (s.takeCustody p pk).learnSrc pk
  let pk := { pk with via := if pk.via = s.pkg.member then noVia else pk.via, hop := (pk.hop + 1) % 8 }
  let port := s.portTo (if pk.via = noVia then pk.dgdn % 2 ^ 10 else pk.via)
  if (s.pt port).lst = 2 ∨ (s.pt port).lst = 3 then s.hold port pk
  else if isRequest pk then s.nakBack pk 2
  else s.sendResp pk port

/-- A packet comes by a port: only by one whose link is Up (R352), or from this device itself. -/
def State.comes (s : State) (p : Nat) : Bool := p == selfPort || s.portUp p

/-- CUSTODY_ACK (R356, R361): the next hop has the packet; its copy is released, and its credit with it. -/
def execCustodyAck (a : Arrival) (s : State) : Host.Outcome State Fault Refusal :=
  let pk := a.pk
  .next (
    if !s.portUp a.port then s
    else
      let s := s.learnSrc pk
      let mine (c : Cust) : Bool :=
        c.port == a.port && c.pk.tag == pk.tag && c.pk.seq == pk.seq && c.pk.sgdn == pk.sgdn && c.pk.dgdn == pk.dgdn
      State.pump { s with fab := { s.fab with cust := s.fab.cust.filter fun (c : Cust) => !mine c } } a.port s.fab.cust.length)

/-- CUSTODY_TIMEOUT (R356): the wait of the first packet in custody with this tag whose wait has elapsed.  A packet that still waits for credit on a
link that is Up has no wait. -/
def execCustodyTimeout (tag : Nat) (s : State) : Host.Outcome State Fault Refusal :=
  .next (match s.fab.cust.find? fun c => c.pk.tag == tag && decide (c.at' + s.pkg.ctmo * 1000 ≤ s.time) && (c.out || !s.portUp c.port) with
    | none => s
    | some c =>
      if s.portUp c.port ∧ c.tries = 0 then
        State.emit { s with fab := { s.fab with cust := s.fab.cust.erase c ++ [{ c with tries := 1, at' := s.time }] } } c.port c.pk
      else (s.giveUp c).pump c.port s.fab.cust.length)

/-! ### Links (R349 to R353) -/

/-- The address of a port's window. -/
def portAddr (p : Nat) : Nat := hbmTop + 0x34000 + 0x40 * p

/-- The neighbour that port p is wired to (R347); none at an absolute member's port 31. -/
def State.neighbour (s : State) (p : Nat) : Option Nat := (podNeighbours s.pkg.member)[p]?

/-- PORT_ENABLE (R351, R352): a write of `PORTCTL`. -/
def execPortEnable (who : Who) (p : Nat) (val : DWord) (s : State) : Host.Outcome State Fault Refusal :=
  .next (
    if !whoAdmin who ∨ 32 ≤ p then s.dropWrite who (portAddr p)
    else
      let x := s.pt p
      let en := val.getLsbD 0
      if !en then (s.setPt p { x with en := false, lst := 0, consec := 0, replays := [] }).linkDown p
      else if x.en then s
      else s.setPt p { x with en := true, fails := 0, consec := 0, lst := if (s.neighbour p).isSome then 1 else 0 })

/-- The link sequences of a port start over. -/
def Port.restart (x : Port) : Port := { x with seq := 0, tx := 0, buf := [], asm := [], replays := [] }

/-- LINK_TRAIN_END (R352): the identity that the far end gave, or none when training failed.  A link that is Up sends what waits for it. -/
def execLinkTrainEnd (p : Nat) (id : Option Ident) (s : State) : Host.Outcome State Fault Refusal :=
  .next (
    let x := s.pt p
    if x.lst ≠ 1 ∧ x.lst ≠ 3 then s
    else match id with
      | none => (s.setPt p { x with fails := min 15 (x.fails + 1), consec := x.consec + 1, lst := if 2 ≤ x.consec then 5 else 1 }).linkDown p
      | some i =>
        let ok := i.gdn / 2 ^ 10 == s.pkg.pod && s.neighbour p == some (i.gdn % 2 ^ 10)
        let y := { x.restart with peer := i.gdn % 2 ^ 20, pinc := i.inc % 2 ^ 8, pport := i.port % 2 ^ 5, consec := 0, lst := if ok then 2 else 4 }
        let t := s.setPt p y
        if ok then (t.loadInc (i.gdn % 2 ^ 10) i.inc).pump p s.fab.cust.length else t.linkDown p)

/-- A link enters Retraining (R350, R352): what it holds in custody waits. -/
def State.retrain (s : State) (p : Nat) : State := s.setPt p { s.pt p with lst := 3, replays := [] }

/-- LOSS_OF_SIGNAL (R352). -/
def execLossOfSignal (p : Nat) (s : State) : Host.Outcome State Fault Refusal :=
  .next (if s.portUp p then s.retrain p else s)

/-- The largest value of a 64-bit counter. -/
def max64 : Nat := 2 ^ 64 - 1

/-- A replay of a link (R350), of either direction: counted, and the sixteenth in a millisecond retrains the link. -/
def State.replayed (s : State) (p : Nat) : State :=
  let x := s.pt p
  let rs := (x.replays.filter fun t => decide (s.time < t + 1000000)) ++ [s.time]
  let s := s.setPt p { x with rpl := min max64 (x.rpl + 1), replays := rs }
  if 16 ≤ rs.length then s.retrain p else s

/-- The far end refuses a flit: the sender goes back to it, and sends what its replay buffer holds from there (R350). -/
def State.linkReplay (s : State) (p seq : Nat) : State :=
  if !s.portUp p then s
  else
    let fs := (s.pt p).buf.dropWhile fun f => f.seq != seq
    ({ s with fab := { s.fab with again := s.fab.again ++ fs.map fun f => (p, f) } }).replayed p

/-- The four words of a packet's header (R353). -/
def pktWords (pk : FabPkt) : List Nat :=
  [pk.kind % 2 ^ 4 * 2 ^ 60 + pk.via % 2 ^ 10 * 2 ^ 48 + pk.sinc % 2 ^ 8 * 2 ^ 40 + pk.dinc % 2 ^ 8 * 2 ^ 32 + pk.seq % 2 ^ 16 * 2 ^ 16 + pk.tag % 2 ^ 16,
   pk.sgdn % 2 ^ 20 * 2 ^ 44 + pk.dgdn % 2 ^ 20 * 2 ^ 24 + pk.hop % 2 ^ 3 * 2 ^ 21 + pk.data.length % 2 ^ 13 * 2 ^ 8 + pk.opx % 2 ^ 8,
   pk.pa % 2 ^ 52, pk.edge % 2 ^ 48 * 2 ^ 16 + pk.atype % 2 ^ 4]

/-- The bytes of a packet: header and payload. -/
def pktBytes (pk : FabPkt) : List Byte := (pktWords pk).flatMap (natLe 8 ·) ++ pk.data

/-- The bytes of a flit (R349): its 256 bytes of the packet, filled with zeros. -/
def Flit.bytes (f : Flit) : List Byte :=
  let b := ((pktBytes f.pk).drop (256 * f.i)).take 256
  b ++ List.replicate (256 - b.length) 0

/-- Bytes of payload that a header gives. -/
def headLen (bs : List Byte) : Nat := bitsOf (leNat ((bs.drop 8).take 8)) 8 13

/-- The packet that bytes are. -/
def pktOf (bs : List Byte) : FabPkt :=
  let w (i : Nat) : Nat := leNat ((bs.drop (8 * i)).take 8)
  { kind := bitsOf (w 0) 60 4, via := bitsOf (w 0) 48 10, sinc := bitsOf (w 0) 40 8, dinc := bitsOf (w 0) 32 8, seq := bitsOf (w 0) 16 16
    tag := bitsOf (w 0) 0 16, sgdn := bitsOf (w 1) 44 20, dgdn := bitsOf (w 1) 24 20, hop := bitsOf (w 1) 21 3, opx := bitsOf (w 1) 0 8
    pa := bitsOf (w 2) 0 52, edge := bitsOf (w 3) 16 48, atype := bitsOf (w 3) 0 4, data := (bs.drop 32).take (headLen bs) }

/-- The row of a packet that has come (R353): none for a reserved kind. -/
def arrivalOf (p : Nat) (pk : FabPkt) : Option Instr :=
  match pk.kind with
  | 0 | 2 | 3 | 5 => some (.fabricRequestArrive ⟨p, pk⟩)
  | 1 => some (.fabricResponseArrive ⟨p, pk⟩)
  | 4 => some (if (signalOf pk.pa).isSome then .signalIncrementArrive ⟨p, pk⟩ else .fabricRequestArrive ⟨p, pk⟩)
  | 6 => some (.pintArrive ⟨p, { port := 0, auth := true, len := 0, vlan := none, udp := 0 }, pk⟩)
  | 7 => some (.edgeqArrive ⟨p, pk⟩)
  | 8 => some (if pk.opx % 2 = 0 then .custodyAck ⟨p, pk⟩ else .endToEndAck ⟨p, pk⟩)
  | 9 => some (.nakArrive ⟨p, pk⟩)
  | _ => none

/-- A flit that is accepted joins its packet; the last one completes it (R349, R353): the packet arrives next, or is dropped and counted when its
kind is reserved. -/
def State.acceptFlit (s : State) (p : Nat) (bytes : List Byte) : State :=
  let x := s.pt p
  let bs := x.asm ++ bytes.take 256
  if bs.length < 32 + headLen bs then s.setPt p { x with asm := bs }
  else match arrivalOf p (pktOf bs) with
    | some i => { s.setPt p { x with asm := [] } with agenda := .event i :: s.agenda }
    | none => s.setPt p { x with asm := [], rsvd := x.rsvd + 1 }

/-- FLIT_RECEIVE (R349, R350): a flit with its link sequence number, or none when its CRC or its codeword is bad.  A refused flit is replayed; one
out of sequence is part of a replay and is passed over. -/
def execFlitReceive (p seq : Nat) (flit : Option RxFlit) (s : State) : Host.Outcome State Fault Refusal :=
  .next (
    let x := s.pt p
    if x.lst ≠ 2 then s
    else match flit with
      | some f =>
        let x := { x with fec := min max64 (x.fec + f.corrected) }
        if seq % 2 ^ 12 = x.seq then (s.setPt p { x with seq := (x.seq + 1) % 2 ^ 12 }).acceptFlit p f.bytes else s.setPt p x
      | none => s.replayed p)

/-! ### Incarnations (R361) -/

/-- The incarnation checks of a packet at its destination: the state, and whether the packet is taken. -/
def State.incCheck (s : State) (pk : FabPkt) : State × Bool :=
  if incOlder pk.sinc (s.incOf (pk.sgdn % 2 ^ 10)) then (s, false)
  else
    let s := s.learnSrc pk
    if pk.dinc % 2 ^ 8 ≠ s.pkg.inc % 2 ^ 8 then (s.nakBack pk 1 [.ofNat 8 s.pkg.inc], false) else (s, true)

/-! ### The destination's order (R219, R357, R359) -/

/-- A received intent (R340, R365): of this device's group only; one whose decision point has passed counts as admitted. -/
def State.intentIn (s : State) (gdn inc : Nat) (data : List Byte) : State :=
  let w (i n : Nat) : Nat := leNat ((data.drop i).take n)
  let p := s.pow
  let n := w 0 8
  let i : Intent := { n, d := w 10 2, rate := w 8 2, cls := w 12 2 % max 1 p.stag, own := false, adm := decide (n ≤ p.k + 2), n0 := n, rank := w 12 2, inc, gdn }
  if p.gid = 0 ∨ w 14 2 ≠ p.gid then s else { s with pow := { p with intents := p.intents ++ [i] } }

/-- A request is performed, and its response made. -/
def State.perform (s : State) (pk : FabPkt) : FabPkt × State :=
  let root := s.rootEdge 0
  match pk.kind with
  | 6 => let s := s.intentIn pk.sgdn pk.sinc pk.data; (s.answer pk 8 1 0 [], s)
  | 7 => (s.answer pk 1 0 root (s.edgeAnswer (leNat (pk.data.take 8) % 2 ^ 48)), s)
  | _ =>
    match s.fabMem pk.kind pk.opx pk.atype pk.pa (stampOf pk.edge noLid) pk.data pk.sgdn with
    | (.error c, s) => (s.answer pk 9 c 0 [], s)
    | (.ok bs, s) => if pk.kind = 0 ∨ pk.kind = 4 then (s.answer pk 1 0 root bs, s) else (s.answer pk 8 1 0 [], s)

/-- A request whose turn it is: performed, its response kept and sent, and the next expected. -/
def State.take (s : State) (pk : FabPkt) : State :=
  let m := pk.sgdn % 2 ^ 10
  let (r, s) := s.perform pk
  let x := Tbl.get {} s.fab.src m
  let y := { x with next := some ((pk.seq + 1) % 2 ^ 16), resp := x.resp ++ [r], buf := x.buf.filter fun b => b.seq != pk.seq }
  ({ s with fab := { s.fab with src := Tbl.set {} s.fab.src m y } }).sendResp r

/-- The requests that waited for the ones before them are performed in turn. -/
def State.drain (s : State) (m : Nat) : Nat → State
  | 0 => s
  | fuel + 1 =>
    let x := Tbl.get {} s.fab.src m
    match x.buf.find? fun b => x.next == some b.seq with
    | some b => (s.take b).drain m fuel
    | none => s

/-- A probe: an LD of 0 bytes (R358). -/
def isProbe (pk : FabPkt) : Bool := pk.kind == 0 && pk.opx == 7

/-- A request at its destination (R357): performed in the sequence of its source, kept until its turn, or answered from the stored
response. -/
def State.arrive (s : State) (pk : FabPkt) : State :=
  let m := pk.sgdn % 2 ^ 10
  let x := Tbl.get {} s.fab.src m
  let d := match x.next with | some n => (pk.seq + 2 ^ 16 - n) % 2 ^ 16 | none => 0
  match x.resp.find? fun r => r.seq == pk.seq with
  | some r => if 2 ^ 15 ≤ d then s.sendResp r else s
  | none =>
    if isProbe pk ∨ 2 ^ 15 ≤ d then s
    else if d = 0 then (s.take pk).drain m 256
    else if 256 ≤ d ∨ x.buf.any fun b => b.seq == pk.seq then s
    else { s with fab := { s.fab with src := Tbl.set {} s.fab.src m { x with buf := x.buf ++ [pk] } } }

/-- A request packet arrives (R356, R357, R359, R361); one of an older incarnation of its source is dropped, and a device in a reset of rung 4 or above
answers another NOSVC. -/
def State.requestIn (s : State) (p : Nat) (pk : FabPkt) : State :=
  if !isRequest pk || !s.comes p then s
  else if pk.dgdn ≠ s.gdn then s.forward p pk
  else
    let s := s.takeCustody p pk
    if incOlder pk.sinc (s.incOf (pk.sgdn % 2 ^ 10)) then s
    else if s.noService then (s.learnSrc pk).nakBack pk 6
    else match s.incCheck pk with
      | (s, true) => s.arrive pk
      | (s, false) => s

/-- FABRIC_REQUEST_ARRIVE. -/
def execFabricRequestArrive (a : Arrival) (s : State) : Host.Outcome State Fault Refusal := .next (s.requestIn a.port a.pk)

/-- A datagram of the member `gdn` from outside the pod (R340, R365).  One without payload acknowledges the oldest datagram to its sender (log 84).  A
PINT withdraws the intents of an earlier incarnation of its sender, is received, and is acknowledged to the address of the sender in the member table. -/
def State.pintUdp (s : State) (from' : Nat) (data : List Byte) : State :=
  if data.isEmpty then
    (match s.fab.out.find? fun r => r.owner == .gov && r.pk.dgdn == from' && r.pk.dgdn / 2 ^ 10 != s.pkg.pod with
    | some r => { s with fab := { s.fab with out := s.fab.out.erase r } }
    | none => s)
  else
  let h := leNat (data.take 8)
  let gdn := h % 2 ^ 20
  let inc := h / 2 ^ 32 % 2 ^ 8
  let gone (i : Intent) : Bool := !i.own && i.gdn == gdn && incNewer inc i.inc
  let s := { s with pow := { s.pow with intents := s.pow.intents.filter fun (i : Intent) => !gone i } }
  if s.pow.intents.any fun i => !i.own && i.gdn == gdn && incOlder inc i.inc then s
  else
    let s := s.intentIn gdn inc (data.drop 8)
    { s with fab := { s.fab with udp := s.fab.udp ++ [(s.memberAddr gdn, s.pkg.pintport, [])] } }

/-- PINT_ARRIVE (R365): a packet of the pod, or a datagram from outside it, to `PINTPORT`. -/
def execPintArrive (a : PintIn) (s : State) : Host.Outcome State Fault Refusal :=
  .next (
    if a.pk.kind ≠ 6 then s
    else if a.port < 32 then s.requestIn a.port a.pk
    else match s.ethIn a.wire with
      | (s, true) => if a.wire.udp = s.pkg.pintport then s.pintUdp a.pk.sgdn a.pk.data else s
      | (s, false) => s)

/-- EDGEQ_ARRIVE (R367, R399). -/
def execEdgeqArrive (a : Arrival) (s : State) : Host.Outcome State Fault Refusal :=
  .next (if a.pk.kind = 7 then s.requestIn a.port a.pk else s)

/-- SIGNAL_INCREMENT_ARRIVE (R386): an ATOM to the signal window. -/
def execSignalIncrementArrive (a : Arrival) (s : State) : Host.Outcome State Fault Refusal :=
  .next (if a.pk.kind = 4 ∧ (signalOf a.pk.pa).isSome then s.requestIn a.port a.pk else s)

/-! ### The end of a request at its source (R229, R358, R388) -/

/-- The outstanding request that a response answers. -/
def State.outOf (s : State) (pk : FabPkt) : Option OutReq := s.fab.out.find? fun r => r.pk.tag == pk.tag && r.pk.seq == pk.seq

/-- A request leaves the outstanding ones. -/
def State.dropOut (s : State) (r : OutReq) : State :=
  { s with fab := { s.fab with out := s.fab.out.filter (fun (x : OutReq) => x.pk.tag != r.pk.tag) } }

/-- The end-to-end ACK of a response (R357). -/
def State.ackResp (s : State) (pk : FabPkt) : State :=
  s.sendResp { kind := 8, via := noVia, sinc := s.pkg.inc, dinc := s.incOf (pk.sgdn % 2 ^ 10), seq := pk.seq, tag := pk.tag, sgdn := s.gdn
               dgdn := pk.sgdn, hop := 0, opx := 1, pa := 0, edge := 0, atype := 0, data := [] }

/-- What a thread's pending result becomes when a request of it ends: the data, or the NAK code. -/
def Pend.landed (p : Pend) (tag : Nat) (wr : Bool) (out : Except Nat (List Byte)) : Pend :=
  match p.src with
  | .fabric t =>
    if t ≠ tag then p
    else match out with
      | .ok bs => { p with src := .here, vals := if p.w = 0 then p.vals else loadWords p.w p.sx (leNat bs) }
      | .error c => pendErr p.flag cFabric (if c = 7 then p.fva else p.va) wr p.pc c
  | .mcast tags =>
    match tags.find? (·.1 == tag) with
    | none => p
    | some (_, m) =>
      let tags := tags.filter (·.1 != tag)
      let p := match out with
        | .ok _ => p
        | .error c => { p with failed := p.failed + 2 ^ m, nak := if p.failed % 2 ^ m = 0 then c else p.nak }
      if !tags.isEmpty then { p with src := .mcast tags }
      else if p.failed = 0 then { p with src := .here }
      else pendErr p.flag cMcast p.failed true p.pc p.nak p.va
  | .here | .mma _ => p

/-- A request of a thread ends. -/
def State.endThread (s : State) (tid tag : Nat) (wr : Bool) (out : Except Nat (List Byte)) : State :=
  s.modTh tid fun t => { t with pend := t.pend.map fun p => { p.landed tag wr out with seq := p.seq, tok := p.tok, both := p.both } }

/-- A request of a schedule slot ends, or the record of the Migrating page that its data wait for (R264). -/
def State.endTruss (s : State) (n tag edge : Nat) (out : Except Nat (List Byte)) : Except Nat State :=
  let x := s.sl n
  match x.ops.find? fun o => !o.eth && o.k == tag with
  | none => .ok s
  | some o =>
    let ended (s : State) : State := (s.modSl n fun x => { x with ops := x.ops.filter fun y => y.eth || y.k != tag }).tFlush n
    match out, o.dst with
    | .error c, _ => .ok (s.tFault n 7 c o.va o.wr)
    | .ok _, none => .ok (ended s)
    | .ok bs, some d =>
      match s.tWritable x.cid x.die 1 d bs.length with
      | (.wait k, _) => .error k
      | (.fail c v, s) => .ok (s.tFault n (tReason c) 0 v true)
      | (.ok, s) => .ok (ended ((s.tLand n d bs).modSl n fun x => { x with sigEdge := Tbl.set 0 x.sigEdge 16 (edge % 2 ^ 48) }))

/-- A request of a CP thread ends: the read of a WAIT, or a signal update.  A value that satisfies a WAIT whose thread no longer waits for it is a
wake (R60). -/
def State.endCp (s : State) (q kind va edge : Nat) (out : Except Nat (List Byte)) : State :=
  let h := s.qv q
  let waits : Bool := kind == 0 && h.wakea == va && va != 0
  match out with
  | .ok bs =>
    if !waits || decide (leNat bs < h.wakev) then s
    else if h.mapped ∧ h.qst = 3 then { s with watch := Tbl.set {} s.watch q { edge := stampOf edge noLid } }.waitDone q
    else s.qput q { h with wp := true }
  | .error c =>
    let s := s.cpRec h.cid q cFabric va (kind != 0) 0 c
    if waits && h.mapped && h.qst == 3 then s.qfault q qAccess else s

/-- The answer of an EDGEQ reaches the walk that asked (R399, R401). -/
def State.endWalk (s : State) (cid e : Nat) (out : Except Nat (List Byte)) : State :=
  let a : Nat × Edge := match out with | .ok bs => edgeOfBytes s.time bs | .error _ => (2, {})
  let s := s.modCx cid fun c => { c with answers := c.answers ++ [(e, a.1, a.2)] }
  { s with agenda := s.agenda ++ [Move.event (.criticalPathWalk cid)] }

/-- A request ends, with its data or a final NAK code, or waits for a Migrating page. -/
def State.endReq (s : State) (r : OutReq) (edge : Nat) (out : Except Nat (List Byte)) : Except Nat State :=
  let t := s.dropOut r
  match r.owner with
  | .thread tid => .ok (t.endThread tid r.pk.tag (r.pk.kind != 0) out)
  | .ctx _ => .ok t
  | .slot n => t.endTruss n r.pk.tag edge out
  | .cp q => .ok (t.endCp q r.pk.kind r.va edge out)
  | .gov => .ok (match out with
    | .ok _ => t
    | .error _ => { t with fab := { t.fab with pintlost := sat32 t.fab.pintlost } })
  | .walk cid => .ok (t.endWalk cid (leNat (r.pk.data.take 8) % 2 ^ 48) out)

/-- A response that arrives for this device or passes through it. -/
def State.respIn (s : State) (p : Nat) (pk : FabPkt) (act : State → State) : State :=
  if !s.comes p then s
  else if pk.dgdn ≠ s.gdn then s.forward p pk
  else match (s.takeCustody p pk).incCheck pk with
    | (s, true) => act s
    | (s, false) => s

/-- A request is completed by a response (R358), which is acknowledged; `again` runs once data that wait for a Migrating page may land. -/
def State.complete (s : State) (pk : FabPkt) (again : Instr) : State :=
  match s.outOf pk with
  | none => s.ackResp pk
  | some r =>
    match s.endReq r pk.edge (.ok pk.data) with
    | .ok s => s.ackResp pk
    | .error k => s.lateAt k (.event again)

/-- FABRIC_RESPONSE_ARRIVE (R358). -/
def execFabricResponseArrive (a : Arrival) (s : State) : Host.Outcome State Fault Refusal :=
  .next (if a.pk.kind ≠ 1 then s else s.respIn a.port a.pk fun s => s.complete a.pk (.fabricResponseArrive { a with port := selfPort }))

/-- A request that an end-to-end ACK completes (R353, R358): not an LD, an ATOM or an EDGEQ, which an LDRESP completes. -/
def ackEnds (k : Nat) : Bool := k != 0 && k != 4 && k != 7

/-- END_TO_END_ACK (R357, R358): of a request of this device that an ACK completes, or of a response that this device keeps. -/
def execEndToEndAck (a : Arrival) (s : State) : Host.Outcome State Fault Refusal :=
  let pk := a.pk
  .next (if pk.kind ≠ 8 ∨ pk.opx % 2 = 0 then s else s.respIn a.port pk fun s =>
    if (s.outOf pk).any fun r => r.pk.dgdn == pk.sgdn && ackEnds r.pk.kind then s.complete pk (.endToEndAck ⟨selfPort, pk⟩)
    else
      let m := pk.sgdn % 2 ^ 10
      let x := Tbl.get {} s.fab.src m
      { s with fab := { s.fab with src := Tbl.set {} s.fab.src m { x with resp := x.resp.filter fun r => !(r.seq == pk.seq && r.tag == pk.tag) } } })

/-- A request ends with a final code. -/
def State.final (s : State) (r : OutReq) (code : Nat) : State := match s.endReq r 0 (.error code) with | .ok s => s | .error _ => s

/-- A NAK for a request of this device (R358, R361): LINKDOWN sends it again on another route while resends are left; code 1 brings the destination's
incarnation; a code that the destination keeps as its response is acknowledged. -/
def State.nakIn (s : State) (pk : FabPkt) : State :=
  let kept : Bool := pk.opx == 3 || pk.opx == 5 || pk.opx == 7
  match s.outOf pk with
  | none => if kept then s.ackResp pk else s
  | some r =>
    match pk.opx with
    | 2 =>
      let dst := r.pk.dgdn % 2 ^ 10
      let s := { s with fab := { s.fab with down := (s.fab.down.filter fun (b : Nat × Nat × Nat) => decide (s.time < b.2.2 + 1000000)) ++ [(dst, r.pk.via, s.time)] } }
      if r.resends < s.pkg.rsnd then s.sendReq { r with resends := r.resends + 1 } else s.final r 4
    | 1 => (s.loadInc (r.pk.dgdn % 2 ^ 10) (leNat (pk.data.take 1))).final r 1
    | c => let s := s.final r c; if kept then s.ackResp pk else s

/-- NAK_ARRIVE (R358, R361).  Code 1 is taken whatever its source's incarnation, since its byte 0 is loaded without comparison. -/
def execNakArrive (a : Arrival) (s : State) : Host.Outcome State Fault Refusal :=
  let pk := a.pk
  .next (
    if pk.kind ≠ 9 || !s.comes a.port then s
    else if pk.dgdn ≠ s.gdn then s.forward a.port pk
    else if pk.sgdn = s.gdn then s.nakIn pk
    else
      let s := s.takeCustody a.port pk
      if pk.opx = 1 then
        if pk.dinc % 2 ^ 8 ≠ s.pkg.inc % 2 ^ 8 then (s.learnSrc pk).nakBack pk 1 [.ofNat 8 s.pkg.inc] else (s.learnSrc pk).nakIn pk
      else match s.incCheck pk with
        | (s, true) => s.nakIn pk
        | (s, false) => s)

/-- SOURCE_DEADLINE (R358): probes on each route in turn whose first link is Up, then code 8; a datagram has no probes. -/
def execSourceDeadline (tag : Nat) (s : State) : Host.Outcome State Fault Refusal :=
  .next (match s.fab.out.find? fun r => r.pk.tag == tag with
    | none => s
    | some r =>
      let d := s.pkg.dline * 1000
      if s.time < r.sentAt + d then s
      else if r.sentAt + 2 * d ≤ s.time then s.final r 8
      else if r.pk.dgdn / 2 ^ 10 ≠ s.pkg.pod then s
      else
        let dst := r.pk.dgdn % 2 ^ 10
        let vs := (s.vias dst).filter fun v => s.portUp (s.viaRoute dst v).1
        let via := vs.getD (r.probes % vs.length) noVia
        let s : State := { s with fab := { s.fab with out := s.fab.out.map fun (x : OutReq) =>
          if x.pk.tag = tag then { x with probes := x.probes + 1 } else x } }
        if vs.isEmpty then s else s.hold (s.viaRoute dst via).1 { r.pk with kind := 0, opx := 7, via, data := [] })

/-- TIME_SYNC (R331, R366): package time follows the time root, and so does the number of the interval. -/
def execTimeSync (ns : Nat) (s : State) : Host.Outcome State Fault Refusal := .next { s with time := ns, pow := { s.pow with k := ns / 1000 } }

end Sys2Proof.Machine
end

