-- ==== Sys2Proof/Machine/Manage.lean ====
section
/-!
DEFINITION. The management controller (R407 to R419): power-on, recovery, resets of the device (R69), the mailboxes and their commands, and
the debug commands (R390 to R393).
-/
namespace Sys2Proof.Machine

/-! ### Whole-device reset and power (R69, R407, R410, R418, R419) -/

/-- A rung-6 reset (R69): what the management controller keeps (R411 to R413, R393), the registers marked P, the next incarnation. -/
def State.deviceReset (s : State) : State :=
  { State.reset with
    pkg := { State.reset.pkg with pod := s.pkg.pod, member := s.pkg.member, price := s.pkg.price, inc := (s.pkg.inc + 1) % 2 ^ 8 }
    mg := { s.mg with boot := .off, m := State.reset.mg.m, pkey := [], pkeySet := false, firstBind := false, writing := none
                      dbg := [{}, {}], mbx := s.mg.mbx.map fun (x : Mbx) => { x with busy := false, mcoll := false, mstat := 0, rlen := 0 } } }

/-- RESET_DEVICE (R67 to R69): its target is ignored. -/
def execResetDevice (who : Who) (s : State) : Host.Outcome State Fault Refusal :=
  .next (s.rstctl who 6 0 (.resetDevice who) false State.deviceReset)

/-- `n` bytes of an image from an offset, as a number. -/
def imgNat (img : List Byte) (off n : Nat) : Nat := leNat ((img.drop off).take n)

/-- The body of an image (R408). -/
def imgBody (img : List Byte) : List Byte := (img.drop 0x2000).take (imgNat img 8 8)

/-- The ROM accepts an image (R409). -/
def State.imageOk (s : State) (img : List Byte) : Bool :=
  imgNat img 0 4 == 0x57464E58 && Config.shake256 ((img.drop 0x10).take 1952) == Config.fusedKeyDigest &&
    Config.mldsaVerify ((img.drop 0x10).take 1952) (img.take 0x7B0 ++ imgBody img) ((img.drop 0x7B0).take 3309) &&
    decide (s.mg.minSvn ≤ imgNat img 4 4) && decide (0x2000 + imgNat img 8 8 ≤ img.length)

/-- Part n of a body, after its 16-byte length prefix (R408). -/
def bodyPart : Nat → List Byte → List Byte
  | 0, b => (b.drop 16).take (leNat (b.take 16))
  | n + 1, b => bodyPart n (b.drop (16 + leNat (b.take 16)))

/-- The price table of an image (R324). -/
def priceTable (b : List Byte) : Tbl Word :=
  (upto (min 4096 (b.length / 4))).foldl (fun t i => Tbl.set 0 t i (.ofNat 32 (leNat ((b.drop (4 * i)).take 4)))) []

/-- Every port's `EN` is set (R407, step 4). -/
def State.enablePorts (s : State) : State :=
  (upto 32).foldl (fun s p => s.setPt p { s.pt p with en := true, lst := if s.pkg.member < 993 ∧ (s.neighbour p).isSome then 1 else 0 }) s

/-- `PWRCFG` (R330). -/
def Pow.setPwrcfg (p : Pow) (v : Nat) : Pow :=
  let pmax := min 3200 (bitsOf v 52 12)
  let slew := min 400 (max 1 (bitsOf v 31 9))
  { p with pmax, pmin := min pmax (bitsOf v 40 12), slew, sfree := min slew (bitsOf v 22 9), ilead := max 4 (bitsOf v 14 8), scrubmax := bitsOf v 4 10 }

/-- `PGRP` (R339). -/
def Pow.setPgrp (p : Pow) (v : Nat) : Pow :=
  { p with gid := bitsOf v 48 16, gsize := max 1 (bitsOf v 32 16), grank := bitsOf v 16 16, stag := max 1 (bitsOf v 12 4), gbud := v % 2 ^ 12 }

/-- The die masks that a home entry takes (R17, R224). -/
def homeMaskOk (m : Nat) : Bool := [1, 2, 4, 8, 3, 12, 15].contains m

/-- The sixteen home entries of a word of the home table (R224): one that names no partition shape is left as it is. -/
def Pkg.setHome (k : Pkg) (n : Nat) (val : DWord) : Pkg :=
  { k with homecfg := (upto 16).foldl (fun t i =>
      let m := bitsOf val.toNat (4 * i) 4
      if homeMaskOk m then Tbl.set 15 t (16 * n + i) m else t) k.homecfg }

/-- `PWRCFG` as it reads (R330). -/
def Pow.pwrcfg (p : Pow) : Nat := p.pmax * 2 ^ 52 + p.pmin * 2 ^ 40 + p.slew * 2 ^ 31 + p.sfree * 2 ^ 22 + p.ilead * 2 ^ 14 + p.scrubmax * 2 ^ 4

/-- `PGRP` as it reads (R339). -/
def Pow.pgrp (p : Pow) : Nat := p.gid * 2 ^ 48 + p.gsize * 2 ^ 32 + p.grank * 2 ^ 16 + p.stag * 2 ^ 12 + p.gbud

/-- A word of the home table as it reads (R224). -/
def Pkg.homeWord (k : Pkg) (n : Nat) : Nat := ((upto 16).map fun i => Tbl.get 15 k.homecfg (16 * n + i) * 2 ^ (4 * i)).sum

/-- A stack that the firmware accepts (R407). -/
def stackOk (x : Stack) : Bool := x.trains && x.gib == 64 && x.bits == 2048 && x.rate == 10

/-- The first of the twelve stack positions that the firmware refuses (R407): one that it does not accept, or of another part number than the first. -/
def badStack (xs : List Stack) : Option Nat :=
  (upto 12).find? fun i => match xs[i]? with
    | some x => !stackOk x || (xs.head?.map (·.part)) != some x.part
    | none => true

/-- The registers that the firmware writes at step 3 (R407). -/
def State.bootWrite (s : State) (c : BootCfg) : State :=
  { s with
    pkg := (upto 96).foldl (fun k n => k.setHome n (c.home.getD n (.allOnes 64)))
      { s.pkg with pod := bitsOf c.devid.toNat 10 10, member := c.devid.toNat % 2 ^ 10 }
    pow := (s.pow.setPwrcfg c.pwrcfg.toNat).setPgrp c.pgrp.toNat }

/-- `DEVID` (R345). -/
def State.devid (s : State) : Nat := s.pkg.inc % 2 ^ 8 * 2 ^ 56 + s.gdn % 2 ^ 20

/-- What the firmware writes at a power-on when no move says otherwise: what the registers hold (log 58). -/
def State.bootCfg (s : State) : BootCfg :=
  { devid := .ofNat 64 s.devid, home := (upto 96).map fun n => .ofNat 64 (s.pkg.homeWord n), pwrcfg := .ofNat 64 s.pow.pwrcfg
    pgrp := .ofNat 64 s.pow.pgrp }

/-- A stack position of the package is populated anew (R407). -/
def State.placeStack (s : State) (i : Nat) (x : Stack) : State :=
  { s with mg := { s.mg with hbm := s.mg.hbm.set i x } }

/-- POWER_ON (R407, R409, R410): an accepted image boots the package; another, or the strap, enters the recovery loader, and so does a stack position
that the firmware refuses, which is logged.  What training finds and what the firmware writes stand in the state (log 58). -/
def execPowerOn (s : State) : Host.Outcome State Fault Refusal :=
  .next (
    if s.mg.boot ≠ .off ∨ s.mg.thermtrip then s
    else
      let img := s.mg.flash
      let mg := { s.mg with boots := (s.mg.boots + 1) % 2 ^ 32 }
      if s.mg.strap || !s.imageOk img then { s with mg := { mg with boot := .recovery } }
      else
        let mg := { mg with svn := imgNat img 4 4, m := setAt 0 mg.m 0 (Config.shake256 (img.take 0x2000 ++ imgBody img)) }
        match badStack s.mg.hbm with
        | some i => ({ s with mg := { mg with boot := .recovery } }).ras 10 3 i i
        | none =>
          let m1 := Config.shake256 (bodyPart 3 (imgBody img))
          (({ s with mg := { mg with boot := .running, m := setAt 0 mg.m 1 m1 }
                     pkg := { s.pkg with price := priceTable (bodyPart 2 (imgBody img)) }
                     held := [] } : State).bootWrite (s.mg.cfg.getD s.bootCfg)).enablePorts)

/-- RECOVERY_IMAGE_PUSH (R410): an accepted image begins to be written to flash; when that ends, the device is reset. -/
def execRecoveryImagePush (bytes : List Byte) (s : State) : Host.Outcome State Fault Refusal :=
  .next (
    if s.mg.boot ≠ .recovery then s
    else match s.mg.writing with
      | some img => ({ s with mg := { s.mg with flash := img, writing := none } } : State).deviceReset
      | none =>
        if s.imageOk bytes then
          { s with mg := { s.mg with writing := some bytes }, agenda := s.agenda ++ [Move.event (.recoveryImagePush bytes)] }
        else s)

/-- POWER_LOSS (R410, R418): a flash write in progress is left incomplete, and the thermal latch clears. -/
def execPowerLoss (s : State) : Host.Outcome State Fault Refusal :=
  .next (
    let t := s.powerOff
    { t with mg := { t.mg with thermtrip := false, flash := if s.mg.writing.isSome then [] else t.mg.flash
                               boot := if s.mg.boot = .outOfService then .outOfService else .off } })

/-- SD0_LOSS (R419): the package is out of service, and the sideband falls silent. -/
def execSd0Loss (s : State) : Host.Outcome State Fault Refusal :=
  .next (let t := s.powerOff; { t with mg := { t.mg with boot := .outOfService, silent := some t.time } })

/-- SIDEBAND_SILENCE (R419). -/
def execSidebandSilence (s : State) : Host.Outcome State Fault Refusal := .next { s with mg := { s.mg with fault := true } }

/-! ### Mailboxes (R413, R414) -/

/-- `MSTAT` codes. -/
def mBusy : Nat := 1
/-- BADCMD. -/
def mBadcmd : Nat := 2
/-- BADARG. -/
def mBadarg : Nat := 3
/-- LOCKED. -/
def mLocked : Nat := 4
/-- PRIV. -/
def mPriv : Nat := 5

/-- Bytes of a data buffer. -/
def Mbx.bytes (x : Mbx) (off n : Nat) : List Byte := (upto n).map fun i => x.buf.getD (off + i) 0

/-- A command ends: its status and its reply. -/
def State.reply (s : State) (n stat : Nat) (bs : List Byte) : State :=
  let x := s.mbx n
  { s with mg := { s.mg with sel := n } }.setMbx n
    { x with busy := false, mstat := stat, rlen := bs.length, buf := bs ++ x.buf.drop bs.length }

/-- A field of a debug command. -/
def Mbx.dbg (x : Mbx) (off n : Nat) : Nat := leNat (x.bytes off n)

/-- The command that a mailbox holds, as a step; none where it ends at once with a status (R392, R414). -/
def Mbx.command (x : Mbx) : Except Nat Instr :=
  match x.opc with
  | 1 => .ok .version
  | 2 => .ok .attest
  | 3 => .ok .extend
  | 4 => .ok .setpkey
  | 5 =>
    if x.arg ≠ 0 then .error mBadarg
    else match x.dbg 0 1 with
      | 1 => .ok .debugHalt
      | 2 => .ok .debugResume
      | 3 => .ok .debugStep1
      | 4 => .ok .debugStatus
      | 5 => .ok .debugEvents
      | _ => .error mBadarg
  | 6 => .ok .rasread
  | 7 => .ok .sensors
  | 8 => .ok .recover
  | 9 => .ok .setpart
  | _ => .error mBadcmd

/-- The mailbox whose command is served next (R413): where both wait, the one not served last. -/
def State.mbxNext (s : State) : Nat :=
  if (s.mbx 0).busy && (s.mbx 1).busy then 1 - s.mg.sel % 2 else if (s.mbx 0).busy then 0 else 1

/-- The command that waits in a mailbox has its step put at the end of the agenda, or ends at once with a status. -/
def State.mbxLater (s : State) (n : Nat) : State :=
  if !(s.mbx n).busy then s
  else match (s.mbx n).command with
    | .ok i => { s with agenda := s.agenda ++ [Move.event i] }
    | .error e => s.reply n e []

/-- A waiting command that ends at once with a status is answered in its turn (R413). -/
def State.mbxRefuse (s : State) (n : Nat) : State :=
  match (s.mbx n).busy, (s.mbx n).command with
  | true, .error e => s.reply n e []
  | _, _ => s

/-- A command of the mailboxes, of a kind: host is mailbox 0, the sideband mailbox 1.  While the mailbox that is served next holds a command of another
kind, that one's step comes first. -/
def State.serve (s : State) (p : Mbx → Bool) (priv : Nat → Mbx → Bool) (act : State → Nat → Mbx → State) : State :=
  let n := s.mbxNext
  if (s.mbx n).busy && p (s.mbx n) then (if priv n (s.mbx n) then s.reply n mPriv [] else act s n (s.mbx n)).mbxRefuse (1 - n)
  else (s.mbxLater n).mbxLater (1 - n)

/-- A command open to both mailboxes. -/
def openToAll : Nat → Mbx → Bool := fun _ _ => false
/-- A command open to the host mailbox only. -/
def hostOnly : Nat → Mbx → Bool := fun n _ => n == 1

/-- VERSION (R414). -/
def execVersion (s : State) : Host.Outcome State Fault Refusal :=
  .next (s.serve (·.opc == 1) openToAll fun s n _ =>
    s.reply n 0 (natLe 4 s.mg.svn ++ natLe 4 Config.romVersion.toNat ++ natLe 8 s.devid))

/-- The first 560 bytes of a report (R415). -/
def State.report (s : State) (nonce : List Byte) : List Byte :=
  nonce ++ natLe 8 s.devid ++ natLe 4 s.mg.svn ++ natLe 4 s.mg.boots ++ s.mg.m.flatMap fun m => natLe 64 m.toNat

/-- ATTEST (R415). -/
def execAttest (s : State) : Host.Outcome State Fault Refusal :=
  .next (s.serve (·.opc == 2) openToAll fun s n x =>
    let r := s.report (x.bytes 0 32)
    s.reply n 0 (r ++ natLe 3309 (Config.mldsaSign r).toNat))

/-- EXTEND (R411). -/
def execExtend (s : State) : Host.Outcome State Fault Refusal :=
  .next (s.serve (·.opc == 3) hostOnly fun s n x =>
    if x.arg < 3 ∨ 7 < x.arg then s.reply n mBadarg []
    else
      let m := Config.shake256 (natLe 64 (s.mg.m.getD x.arg 0).toNat ++ x.bytes 0 64)
      ({ s with mg := { s.mg with m := setAt 0 s.mg.m x.arg m } } : State).reply n 0 [])

/-- SETPKEY (R412). -/
def execSetpkey (s : State) : Host.Outcome State Fault Refusal :=
  .next (s.serve (·.opc == 4) hostOnly fun s n x =>
    if s.mg.pkeySet ∨ s.mg.firstBind then s.reply n mLocked []
    else
      let key := x.bytes 0 1952
      ({ s with mg := { s.mg with pkey := key, pkeySet := true, m := setAt 0 s.mg.m 2 (Config.shake256 key) } } : State).reply n 0 [])

/-- RASREAD (R417): the overflow count, then the entries from the index on. -/
def execRasread (s : State) : Host.Outcome State Fault Refusal :=
  .next (s.serve (·.opc == 6) openToAll fun s n x =>
    s.reply n 0 (natLe 8 s.mg.rasOver ++ ((s.mg.ras.drop x.arg).take 253).flatMap fun e => e.flatMap fun w => natLe 8 w.toNat))

/-- The readings that SENSORS returns, in the spec's order (R418): degrees of the four compute dies, the four sill dies and the twelve stacks, the 48 V
input's voltage and current, the power of each rail, and `%chg.pkg`. -/
def State.readings (s : State) : List Nat :=
  let x := s.mg.sensors
  (upto 20).map (fun i => x.temps.getD i 0 / 16) ++ [x.volts, x.amps] ++ (upto Config.rails.toNat).map (fun i => x.rails.getD i 0) ++ [s.chargePkg]

/-- SENSORS (R418): each reading in 4 bytes (log 113). -/
def execSensors (s : State) : Host.Outcome State Fault Refusal :=
  .next (s.serve (·.opc == 7) openToAll fun s n _ => s.reply n 0 (s.readings.flatMap (natLe 4 ·)))

/-- RECOVER (R410, R414): from M mode or the sideband; host cores, compute dies and ports are then in reset. -/
def execRecover (s : State) : Host.Outcome State Fault Refusal :=
  .next (s.serve (·.opc == 8) (fun n x => n == 0 && !x.mmode) fun s n _ =>
    let t := s.reply n 0 []
    { State.reset with
      pkg := { State.reset.pkg with pod := s.pkg.pod, member := s.pkg.member, price := s.pkg.price, inc := s.pkg.inc }
      mg := { t.mg with boot := .recovery } })

/-- The dies whose partition differs between two layouts. -/
def movedDies (a b : Nat) : Nat :=
  ([0, 1, 2, 3].map fun d => if (layoutOf a).find? (inMask · d) = (layoutOf b).find? (inMask · d) then 0 else 2 ^ d).sum

/-- A context that forbids a change of layout (R18). -/
def State.layoutHeld (s : State) (dies : Nat) : Bool := s.ctx.any fun x => decide (3 ≤ x.2.state) && x.2.dies &&& dies != 0

/-- SETPART (R18, R19, R414). -/
def execSetpart (s : State) : Host.Outcome State Fault Refusal :=
  .next (s.serve (·.opc == 9) hostOnly fun s n x =>
    if 5 ≤ x.arg then s.reply n mBadarg []
    else if s.layoutHeld (movedDies s.pkg.pmode x.arg) then s.reply n mBusy []
    else ({ s with pkg := { s.pkg with pmode := x.arg } } : State).reply n 0 [])

/-! ### Debug commands (R390 to R393) -/

/-- A debug command of a kind waits: `DEBUG` with `ARG` 0 and the kind in `DSUB` (R392). -/
def isDebug (sub : Nat) (x : Mbx) : Bool := x.opc == 5 && x.arg == 0 && x.bytes 0 1 == [.ofNat 8 sub]

/-- `ALL`. -/
def Mbx.dbgAll (x : Mbx) : Bool := (x.dbg 1 1).testBit 1
/-- `DCTX`. -/
def Mbx.dbgCtx (x : Mbx) : Nat := x.dbg 4 1

/-- The live threads that a debug command names (R389, R392). -/
def State.dbgNamed (s : State) (x : Mbx) : List Nat :=
  (s.ctxTids x.dbgCtx).filter fun t => s.liveTid t && (x.dbgAll ||
    ((s.gridOf t).num == x.dbg 8 4 && (s.gridOf t).linear (s.blkOf t) == x.dbg 16 8 && tidGang t == x.dbg 12 4 &&
      (x.dbg 24 4).testBit (tidLane t)))

/-- A live thread that the command names lies in the save area of a Saved context (R38, R44). -/
def State.dbgStored (s : State) (x : Mbx) : Bool :=
  (s.cx x.dbgCtx).state == 6 && match s.readSave x.dbgCtx with
    | none => false
    | some bs => bs.any fun b =>
      let g := s.gr b.gid
      (upto b.thrs.length).any fun i =>
        let w := (b.thrs.getD i (0, 8)).2
        !w.testBit 2 && !w.testBit 3 && (x.dbgAll ||
          (g.num == x.dbg 8 4 && g.linear { bx := b.bx, by' := b.by', bz := b.bz } == x.dbg 16 8 && i / 32 == x.dbg 12 4 &&
            (x.dbg 24 4).testBit (i % 32)))

/-- The reply of HALT, RESUME and STEP1: the status and the count of threads. -/
def State.dbgReply (s : State) (n stat cnt : Nat) : State := s.reply n 0 (natLe 4 stat ++ natLe 4 cnt)

/-- DEBUG_HALT (R117, R390). -/
def execDebugHalt (s : State) : Host.Outcome State Fault Refusal :=
  .next (s.serve (isDebug 1) openToAll fun s n x =>
    let ts := s.dbgNamed x
    if ts.isEmpty then s.dbgReply n 2 0
    else (ts.foldl (fun s t => s.postHalt t ((x.dbg 1 1).testBit 0)) s).dbgReply n 0 ts.length)

/-- A Halted thread is Ready again (R117); it re-executes its blocking slot. -/
def Thr.resume (stepping : Bool) (t : Thr) : Thr := { t with st := .ready, wait := .none, stepping }

/-- The status that refuses a RESUME or STEP1, the Halted threads it names, in that order (R390). -/
def State.dbgHalted (s : State) (x : Mbx) : Except Nat (List Nat) :=
  let ts := s.dbgNamed x
  let hs := ts.filter fun t => (s.th t).st == .halted
  let st := (s.cx x.dbgCtx).state
  if ts.isEmpty && !s.dbgStored x then .error 2 else if st = 5 ∨ st = 6 then .error 1 else if hs.isEmpty then .error 3 else .ok hs

/-- DEBUG_RESUME (R390). -/
def execDebugResume (s : State) : Host.Outcome State Fault Refusal :=
  .next (s.serve (isDebug 2) openToAll fun s n x =>
    match s.dbgHalted x with
    | .error e => s.dbgReply n e 0
    | .ok hs => (hs.foldl (fun s t => s.modTh t (Thr.resume false)) s).dbgReply n 0 hs.length)

/-- DEBUG_STEP1 (R390, R392): the Halted thread on the lowest lane. -/
def execDebugStep1 (s : State) : Host.Outcome State Fault Refusal :=
  .next (s.serve (isDebug 3) openToAll fun s n x =>
    if x.dbgAll then s.reply n mBadarg []
    else match s.dbgHalted x with
      | .error e => s.dbgReply n e 0
      | .ok hs => (s.modTh (hs.foldl min (hs.headD 0)) (Thr.resume true)).dbgReply n 0 1)

/-- DEBUG_STATUS (R390, R392). -/
def execDebugStatus (s : State) : Host.Outcome State Fault Refusal :=
  .next (s.serve (isDebug 4) openToAll fun s n x =>
    if x.dbgAll then s.reply n mBadarg []
    else
      let ts := s.dbgNamed x
      let code (l : Nat) : Nat := match ts.find? fun t => tidLane t == l with | some t => s.threadCode t | none => 0xFF
      s.reply n 0 (natLe 4 (if ts.isEmpty then 2 else 0) ++ (upto 32).flatMap fun l => natLe 1 (code l)))

/-- DEBUG_EVENTS (R393). -/
def execDebugEvents (s : State) : Host.Outcome State Fault Refusal :=
  .next (s.serve (isDebug 5) openToAll fun s n _ =>
    let q := s.mg.dbg.getD n {}
    let k := min 126 (q.evs.length / 8)
    let bs := natLe 4 0 ++ natLe 4 k ++ natLe 4 q.dropped ++ (q.evs.take (8 * k)).flatMap fun w => natLe 8 w.toNat
    ({ s with mg := { s.mg with dbg := setAt {} s.mg.dbg n { evs := q.evs.drop (8 * k), dropped := 0 } } } : State).reply n 0 bs)

/-- A write of `MBX_CMD` (R413); a command that no step serves is answered once it is its mailbox's turn. -/
def State.mbxCmd (s : State) (n : Nat) (mmode : Bool) (val : DWord) : State :=
  let x := s.mbx n
  if x.busy then s.setMbx n { x with mcoll := true }
  else
    let x := { x with busy := true, opc := val.toNat % 2 ^ 8, arg := val.toNat / 2 ^ 32, mmode, rlen := 0, mstat := 0 }
    match x.command with
    | .error _ => let s := s.setMbx n x; if s.mbxNext = n then s.mbxRefuse n else s
    | .ok i => { s.setMbx n x with agenda := s.agenda ++ [Move.event i] }

/-- `MBX_STAT`. -/
def Mbx.stat (x : Mbx) : Nat := x.rlen * 2 ^ 32 + x.mcoll.toNat * 2 ^ 16 + x.mstat * 2 ^ 8 + x.busy.toNat

end Sys2Proof.Machine
end

