-- ==== Sys2Proof/Machine/Registers.lean ====
section
/-!
DEFINITION. Device register space (R12, R13, R15, R16): where every register lies, who may read and write it, and what its fields are.  A write
that has a row of its own in the opcode table becomes that step, the next one of the machine (log 2).
-/
namespace Sys2Proof.Machine

/-! ### Places in register space (R15) -/

/-- A register of device register space. -/
inductive Reg where
  /-- A package register, at an offset (R16). -/
  | pkg (off : Nat)
  | home (n : Nat)
  | res (cid off : Nat)
  | pg (cid off : Nat)
  | port (p off : Nat)
  | slot (n off : Nat)
  | clk (die : Nat)
  | ctx (cid off : Nat)
  | bell (q : Nat)
  | ap (core ch off : Nat)
  | mbx (off : Nat)
  /-- An address that no region names. -/
  | none
  deriving DecidableEq, Repr

/-- The register at an address. -/
def regAt (addr : Nat) : Reg :=
  let o := addr - hbmTop
  if addr < hbmTop then .none
  else if o < 0x10000 then .pkg o
  else if o < 0x10300 then .home ((o - 0x10000) / 8)
  else if 0x20000 ≤ o ∧ o < 0x30000 then .res ((o - 0x20000) / 0x100) (o % 0x100)
  else if 0x30000 ≤ o ∧ o < 0x34000 then .pg ((o - 0x30000) / 0x40) (o % 0x40)
  else if 0x34000 ≤ o ∧ o < 0x34800 then .port ((o - 0x34000) / 0x40) (o % 0x40)
  else if 0x34800 ≤ o ∧ o < 0x35000 then .slot ((o - 0x34800) / 0x20) (o % 0x20)
  else if 0x35000 ≤ o ∧ o < 0x35020 then .clk ((o - 0x35000) / 8)
  else if 0x100000 ≤ o ∧ o < 0x200000 then .ctx ((o - 0x100000) / 0x1000) (o % 0x1000)
  else if 0x1000000 ≤ o ∧ o < 0x2000000 then (if o % 0x1000 = 0 then .bell ((o - 0x1000000) / 0x1000) else .none)
  else if 0x2000000 ≤ o ∧ o < 0x2140000 then
    (if o % 0x1000 < 0x100 then .ap ((o - 0x2000000) / 0x1000) (o % 0x1000 / 0x40) (o % 0x40) else .none)
  else if 0x3000000 ≤ o ∧ o < 0x3002000 then .mbx (o - 0x3000000)
  else .none

/-- The width and alignment of an access that registers accept (R15). -/
def regWidthOk (addr width : Nat) : Bool :=
  match regAt addr with
  | .mbx o => if 0x40 ≤ o then (width == 1 || width == 2 || width == 4 || width == 8) && addr % width == 0 else width == 8 && addr % 8 == 0
  | _ => width == 8 && addr % 8 == 0

/-- The mailbox that a requester reaches: the host's, or the sideband's (R413). -/
def mbxOf : Who → Option Nat
  | .side => some 1
  | w => if whoHsm w then some 0 else none

/-! ### Reading -/

/-- A quantity of watts in a 12-bit field of `PWRSTAT` (R333); one that does not fit leaves a free value there (log 102). -/
def watts12 (n : Nat) : Nat := if n < 2 ^ 12 then n else Config.wideWatts n % 2 ^ 12

/-- A package register as read by HS or M mode or the management controller. -/
def State.pkgRead (s : State) (o : Nat) : Nat :=
  let k := s.pkg
  let p := s.pow
  if o = 0x00 then s.devid
  else if o = 0x08 then 1
  else if o = 0x10 then k.pmode
  else if o = 0x18 then k.rstat * 2 ^ 32
  else if o = 0x20 then k.qdbase
  else if o = 0x28 then k.qcmdStat * 2 ^ 4
  else if o = 0x30 then k.hstbase
  else if o = 0x38 then k.mcbase
  else if o = 0x40 then k.enptbase
  else if o = 0x48 then k.twdog
  else if o = 0x50 then k.cred * 2 ^ 32 + k.ctmo * 2 ^ 24 + k.dline * 2 ^ 16 + k.rsnd
  else if o = 0x58 then p.pwrcfg
  else if o = 0x60 then watts12 p.pset * 2 ^ 52 + watts12 p.demand * 2 ^ 40 + watts12 p.ball * 2 ^ 28 + watts12 p.bshort * 2 ^ 16 + p.tstat % 2 ^ 4 * 2 ^ 12 + min 255 p.defer
  else if o = 0x68 then p.pgrp
  else if o = 0x70 then k.priceIdx
  else if o = 0x78 then (Tbl.get 0 k.price k.priceIdx).toNat
  else if 0x80 ≤ o ∧ o < 0xA0 then (s.di ((o - 0x80) / 8)).droopcnt
  else if o = 0xA0 then k.ingport
  else if o = 0xA8 then k.ingKsel
  else if o = 0xD0 then k.badfmt
  else if o = 0xD8 then k.noq
  else if o = 0xE0 then k.badtag
  else if o = 0xE8 then k.replay
  else if o = 0xF0 then k.full
  else if o = 0xF8 then k.pintport
  else if o = 0x100 then s.fab.pintlost
  else 0

/-- A register of a context window (R20 to R25). -/
def Ctx.read (c : Ctx) (cid o : Nat) : Nat :=
  if o = 0x00 then cid * 2 ^ 56 + c.fcause * 2 ^ 48 + c.state * 2 ^ 32 + c.cbusy.toNat * 2 ^ 31 + c.cstat * 2 ^ 24
  else if o = 0x08 then c.func * 2 ^ 32 + c.ptmo * 2 ^ 24 + c.dies * 2 ^ 20 + c.prio * 2 ^ 16 + c.slice
  else if o = 0x10 then c.asid * 2 ^ 52 + c.root * 2 ^ 16 + c.v.toNat
  else if o = 0x18 then c.himg
  else if o = 0x20 then c.tvec / 8 * 8
  else if o = 0x28 then c.savebase
  else if o = 0x30 then c.savelen
  else if o = 0x38 then c.tmplbase
  else if o = 0x40 then c.tracebase
  else if o = 0x48 then c.faultq
  else 0

/-- A register of a residency window (R244 to R246). -/
def State.resRead (s : State) (cid o : Nat) : Nat :=
  let c := s.cx cid
  if o < 0x80 then (if o % 16 = 0 then c.rrbase.getD (o / 16) 0 else if o % 16 = 8 then c.rrctl.getD (o / 16) 0 else 0).toNat
  else if o = 0x80 then c.lockqllc * 2 ^ 32 + c.lockql2
  else if o = 0x88 then s.lockCount cid 1 * 2 ^ 32 + s.lockCount cid 0
  else 0

/-- A register of a page command window (R262). -/
def Ctx.pgRead (c : Ctx) (o : Nat) : Nat :=
  if o = 0x00 then c.pstat * 2 ^ 48 + c.pbusy.toNat * 2 ^ 47
  else if o = 0x08 then c.pgva.toNat
  else if o = 0x10 then c.pgpa.toNat
  else if o = 0x18 then c.pgarg.toNat
  else 0

/-- A register of a port window (R351). -/
def Port.read (x : Port) (o : Nat) : Nat :=
  if o = 0x00 then x.en.toNat
  else if o = 0x08 then x.peer * 2 ^ 44 + x.pinc * 2 ^ 36 + x.pport * 2 ^ 31 + x.fails * 2 ^ 4 + x.lst
  else if o = 0x10 then x.fec
  else if o = 0x18 then x.rpl
  else 0

/-- A register of a slot status window (R376). -/
def TSlot.read (x : TSlot) (o : Nat) : Nat :=
  if o = 0x00 then x.cid * 2 ^ 56 + x.frsn * 2 ^ 48 + x.nakc * 2 ^ 40 + x.recs * 2 ^ 16 + x.eng * 2 ^ 8 + x.pend.isSome.toNat * 2 ^ 7 + x.st
  else if o = 0x08 then x.pc % 2 ^ 13
  else if o = 0x10 then x.runs
  else if o = 0x18 then x.trap.toNat
  else 0

/-- A clock lock (R341). -/
def Die.clkRead (d : Die) : Nat := d.lk.toNat * 2 ^ 63 + d.lka.toNat * 2 ^ 62 + d.brk * 2 ^ 59 + d.fmhz * 2 ^ 48

/-- `DEPTH` of R284: a queue of 16 does not fit its four bits, and the spec does not say what it reads as then (log 111). -/
def Chan.depth (k : Chan) : Nat := if k.xs.length < 16 then k.xs.length else Config.apDepthFull % 16

/-- `AP_STAT` (R284). -/
def Chan.apRead (k : Chan) : Nat :=
  k.treason * 2 ^ 16 + k.lasterr * 2 ^ 8 + k.depth * 2 ^ 4 + (if k.faulted then 2 else if k.xs.isEmpty then 0 else 1)

/-- What a register reads as for a requester; one that may not read it reads 0. -/
def State.regRead (s : State) (who : Who) (addr width : Nat) : Nat :=
  if !regWidthOk addr width then 0
  else match regAt addr with
    | .pkg o => if whoAdmin who then s.pkgRead o else 0
    | .home n => if whoAdmin who then s.pkg.homeWord n else 0
    | .res cid o => if whoHsm who then s.resRead cid o else 0
    | .pg cid o => if whoAdmin who then (s.cx cid).pgRead o else 0
    | .port p o => if whoAdmin who then (s.pt p).read o else 0
    | .slot n o => if whoHsm who then (s.sl n).read o else 0
    | .clk d => if whoHsm who then (s.di d).clkRead else 0
    | .ctx cid o => if whoHsm who then (s.cx cid).read cid o else 0
    | .bell q => (s.qv q).ridx
    | .ap core ch o => if o = 0x30 ∧ !whoGuest who then ((s.co core).chan ch).apRead else 0
    | .mbx o => match mbxOf who with
      | some n => if o = 0x08 then (s.mbx n).stat else if 0x40 ≤ o then leNat ((s.mbx n).bytes (o - 0x40) width) else 0
      | none => 0
    | .none => 0

/-- A read-clear counter is cleared by a read that returns it (R12). -/
def State.rcClear (s : State) (who : Who) (addr : Nat) : State :=
  if !whoAdmin who then s
  else match regAt addr with
    | .pkg o =>
      if 0x80 ≤ o ∧ o < 0xA0 then s.modDi ((o - 0x80) / 8) fun d => { d with droopcnt := 0 }
      else if o = 0xD0 then { s with pkg := { s.pkg with badfmt := 0 } }
      else if o = 0xD8 then { s with pkg := { s.pkg with noq := 0 } }
      else if o = 0xE0 then { s with pkg := { s.pkg with badtag := 0 } }
      else if o = 0xE8 then { s with pkg := { s.pkg with replay := 0 } }
      else if o = 0xF0 then { s with pkg := { s.pkg with full := 0 } }
      else if o = 0x100 then { s with fab := { s.fab with pintlost := 0 } }
      else s
    | .port p o =>
      let x := s.pt p
      if o = 0x10 then s.setPt p { x with fec := 0 } else if o = 0x18 then s.setPt p { x with rpl := 0 } else s
    | _ => s

/-- A read of a register (R12, R15): the value, which the model's `bus` then holds, and a counter cleared. -/
def State.regLoad (s : State) (who : Who) (addr width : Nat) : State :=
  { (if regWidthOk addr width then s.rcClear who addr else s) with bus := .ofNat 64 (s.regRead who addr width) }

/-- RC_COUNTER_READ (R12, R15); a register that is no counter reads as it is. -/
def execRcCounterRead (who : Who) (span : RegSpan) (s : State) : Host.Outcome State Fault Refusal :=
  .next (s.regLoad who span.addr span.width)

/-! ### Writing -/

/-- The queue, rung-and-target rows of `QCMD` (R48). -/
def qcmdRow (who : Who) (v : Nat) : Option Instr :=
  let q := bitsOf v 52 12
  match v % 16 with
  | 1 => some (.queueEnable who q)
  | 2 => some (.queueDisable who q)
  | 3 => some (.resetQueue who true q)
  | _ => none

/-- The rows of `RSTCTL` (R67). -/
def rstRow (who : Who) (v : Nat) : Option Instr :=
  let t := bitsOf v 8 24
  match v % 8 with
  | 1 => some (.resetQueue who false t)
  | 2 => some (.resetEngine who t)
  | 3 => some (.resetPartition who t)
  | 4 => some (.resetDie who t)
  | 5 => some (.resetFunction who t)
  | 6 => some (.resetDevice who)
  | _ => none

/-- A write of `RSTCTL` (R67): while a reset is in progress it is ignored, or refused by a reset of rung 6; else it is the step of its rung. -/
def State.rstWrite (s : State) (who : Who) (v : Nat) : State :=
  match rstRow who v with
  | none => if whoAdmin who then s else s.dropWrite who rstctlAddr
  | some i =>
    match s.pkg.reset, whoAdmin who with
    | some r, true => if r.1 = 6 then { s with pkg := { s.pkg with rstat := 3 } } else s
    | _, _ => s.asRow who 0 (.ofNat 64 v) i

/-- The rows of `CTX_CTL` (R21). -/
def ctxRow : Nat → Option Instr
  | 1 => some .ctxCreate
  | 2 => some .ctxBind
  | 3 => some .ctxEnable
  | 4 => some .ctxPreempt
  | 5 => some .ctxDisable
  | 6 => some .ctxUnbind
  | 7 => some .ctxDestroy
  | _ => none

/-- The rows of `PG_CMD` (R262). -/
def pgRow : Nat → Option Instr
  | 1 => some .pgPin
  | 2 => some .pgUnpin
  | 3 => some .pgShadow
  | 4 => some .pgUnshadow
  | 5 => some .pgMigrate
  | 6 => some .pgUnmap
  | 7 => some .pgTag
  | 8 => some .pgUnpoison
  | 9 => some .pgResolve
  | 10 => some .pgForceunmap
  | 11 => some .pgQuery
  | _ => none

/-- A base register keeps address bits 51:0 above its alignment (R16). -/
def baseVal (v align : Nat) : Nat := v % 2 ^ 52 / align * align

/-- `FABCFG` (R355). -/
def Pkg.setFabcfg (k : Pkg) (v : Nat) : Pkg :=
  let cred := bitsOf v 32 8
  { k with cred := if 8 ≤ cred ∧ cred ≤ 64 then cred else 32, ctmo := max 1 (bitsOf v 24 8), dline := max 20 (bitsOf v 16 8), rsnd := v % 16 }

/-- A write of a package register that its rule accepts from a requester. -/
def State.pkgWrite (s : State) (who : Who) (o v : Nat) : State :=
  let k := s.pkg
  let drop := s.dropWrite who (hbmTop + o)
  let hsm (s' : State) : State := if whoHsm who then s' else drop
  let mc (s' : State) : State := if who = .mc then s' else drop
  if o = 0x00 then mc { s with pkg := { k with pod := bitsOf v 10 10, member := v % 2 ^ 10 } }
  else if o = 0x18 then s.rstWrite who v
  else if o = 0x20 then hsm { s with pkg := { k with qdbase := baseVal v (2 ^ 16) } }
  else if o = 0x28 then (match qcmdRow who v with | some i => s.asRow who 0 (.ofNat 64 v) i | none => if whoHsm who then s else drop)
  else if o = 0x30 then hsm { s with pkg := { k with hstbase := baseVal v (2 ^ 24) } }
  else if o = 0x38 then hsm { s with pkg := { k with mcbase := baseVal v (2 ^ 21) } }
  else if o = 0x40 then hsm { s with pkg := { k with enptbase := baseVal v (2 ^ 12) } }
  else if o = 0x48 then hsm { s with pkg := { k with twdog := v % 2 ^ 32 } }
  else if o = 0x50 then mc { s with pkg := k.setFabcfg v }
  else if o = 0x58 then mc { s with pow := s.pow.setPwrcfg v }
  else if o = 0x68 then mc { s with pow := s.pow.setPgrp v }
  else if o = 0x70 then (if whoF who then { s with pkg := { k with priceIdx := v % 2 ^ 12 } } else drop)
  else if o = 0x78 then s.asRow who 0 (.ofNat 64 v) (.priceDataWrite who (.ofNat 64 v))
  else if o = 0xA0 then hsm { s with pkg := { k with ingport := v % 2 ^ 16 } }
  else if o = 0xA8 then hsm { s with pkg := { k with ingKsel := v % 2 ^ 12 } }
  else if 0xB0 ≤ o ∧ o < 0xD0 then s.asRow who 0 (.ofNat 64 v) (.ingressKeyWrite who ((o - 0xB0) / 8) (.ofNat 64 v))
  else if o = 0xF8 then hsm { s with pkg := { k with pintport := v % 2 ^ 16 } }
  else drop

/-- A write of a latched register of a context window (R23 to R26); `TVEC` is read-only.  A `TRACEBASE` begins a trace buffer, without a drop count or
a last time (R265, R395). -/
def Ctx.write (c : Ctx) (o v : Nat) : Ctx :=
  if o = 0x08 then { c with func := bitsOf v 32 6, ptmo := max 1 (bitsOf v 24 8), dies := bitsOf v 20 4, prio := bitsOf v 16 4, slice := v % 2 ^ 16 }
  else if o = 0x10 then { c with asid := bitsOf v 52 12, root := bitsOf v 16 36, v := v.testBit 0 }
  else if o = 0x18 then { c with himg := v % 2 ^ 56 }
  else if o = 0x28 then { c with savebase := v % 2 ^ 56 }
  else if o = 0x30 then { c with savelen := v % 2 ^ 32 / 2 ^ 12 * 2 ^ 12 }
  else if o = 0x38 then { c with tmplbase := v % 2 ^ 56 }
  else if o = 0x40 then { c with tracebase := v % 2 ^ 56, drops := 0, traceRec := false, lastTime := 0 }
  else if o = 0x48 then { c with faultq := v % 2 ^ 56 }
  else c

/-- A write into a context window (R20 to R27, R30). -/
def State.ctxWrite (s : State) (who : Who) (cid o v : Nat) : State :=
  if !whoHsm who then s.dropWrite who (ctxCtlAddr cid + o)
  else if o = 0 then
    match ctxRow (v % 16) with
    | some i => s.asRow who cid (.ofNat 64 v) i
    | none => if v % 16 = 0 then s else s.ctxEnd cid (if (s.cx cid).cbusy then 1 else 3)
  else if 0x50 ≤ o then s
  else if (s.cx cid).state ≤ 1 then s.modCx cid fun c => c.write o v
  else s.ctxEnd cid 2

/-- The ways that a range control reserves at a level, when its range is in effect (R245). -/
def rrWays (lvl : Nat) (w : DWord) : Nat :=
  let l := bitsOf w.toNat 13 2
  if w.getLsbD 15 && (l == lvl || l == 2) then w.toNat % 16 else 0

/-- Ways that a context's ranges reserve at a level. -/
def Ctx.ways (c : Ctx) (lvl : Nat) : Nat := (c.rrctl.map (rrWays lvl)).sum

/-- RRCTL_WRITE (R245): `V` = 1 is refused where the range is empty or reserves too many ways (log 62); `WAYS` stands as it is written (log 120). -/
def execRrctlWrite (who : Who) (cid n : Nat) (val : DWord) (s : State) : Host.Outcome State Fault Refusal :=
  .next (
    if !whoHsm who ∨ 8 ≤ n then s.dropWrite who (hbmTop + 0x20000 + 0x100 * cid + 0x08 + 16 * n)
    else
      let w := val.toNat
      let x : DWord := .ofNat 64 (bitsOf w 16 40 * 2 ^ 16 + bitsOf w 13 3 * 2 ^ 13 + bitsOf w 8 3 * 2 ^ 8 + w % 16)
      let c := s.cx cid
      let put (y : DWord) : Ctx := { c with rrctl := setAt 0 c.rrctl n y }
      let others (lvl : Nat) : Nat := ((s.ctx.filter fun y => y.1 != cid && y.2.dies == c.dies).map fun y => y.2.ways lvl).sum
      let bad (lvl : Nat) : Bool := decide (8 < (put x).ways lvl) || decide (14 < (put x).ways lvl + others lvl)
      let refused := x.getLsbD 15 && (decide (bitsOf w 16 40 ≤ bitsOf (c.rrbase.getD n 0).toNat 16 40) || bad 0 || bad 1)
      s.setCx cid (put (if refused then .ofNat 64 (x.toNat - 2 ^ 15) else x)))

/-- A write into a residency window. -/
def State.resWrite (s : State) (who : Who) (cid o v : Nat) : State :=
  if !whoHsm who then s.dropWrite who (hbmTop + 0x20000 + 0x100 * cid + o)
  else if o < 0x80 ∧ o % 16 = 0 then s.modCx cid fun c => { c with rrbase := setAt 0 c.rrbase (o / 16) (.ofNat 64 (bitsOf v 16 40 * 2 ^ 16)) }
  else if o < 0x80 ∧ o % 16 = 8 then s.asRow who cid (.ofNat 64 v) (.rrctlWrite who cid (o / 16) (.ofNat 64 v))
  else if o = 0x80 then s.modCx cid fun c => { c with lockql2 := v % 2 ^ 32, lockqllc := bitsOf v 32 32 }
  else s

/-- A write into a page command window. -/
def State.pgRegWrite (s : State) (who : Who) (cid o v : Nat) : State :=
  if !whoAdmin who then s.dropWrite who (pgCmdAddr cid + o)
  else if o = 0x00 then
    match pgRow (v % 16) with
    | some i => s.asRow who cid (.ofNat 64 v) i
    | none => s.pgEnd cid (if (s.cx cid).pbusy then pBusySt else pBadArg)
  else if o = 0x08 then s.modCx cid fun c => { c with pgva := .ofNat 64 (bitsOf v 16 40 * 2 ^ 16) }
  else if o = 0x10 then s.modCx cid fun c => { c with pgpa := .ofNat 64 (bitsOf v 16 36 * 2 ^ 16) }
  else if o = 0x18 then s.modCx cid fun c => { c with pgarg := .ofNat 64 (bitsOf v 32 32 * 2 ^ 32 + v % 2 ^ 26) }
  else s

/-- A write of a mailbox (R413). -/
def State.mbxWrite (s : State) (who : Who) (o width v : Nat) : State :=
  match mbxOf who with
  | none => s.dropWrite who (hbmTop + 0x3000000 + o)
  | some n =>
    let x := s.mbx n
    if o = 0x00 then s.mbxCmd n (match who with | .hart _ md => md == .m | _ => false) (.ofNat 64 v)
    else if o = 0x08 then s.setMbx n { x with mcoll := x.mcoll && !v.testBit 16 }
    else if 0x40 ≤ o then
      let i := o - 0x40
      let b := x.buf ++ List.replicate (i + width - x.buf.length) 0
      s.setMbx n { x with buf := b.take i ++ natLe width v ++ b.drop (i + width) }
    else s

/-- A write of a register by a requester: another width or alignment, and an address that no region names, is ignored. -/
def State.regWrite (s : State) (who : Who) (addr width : Nat) (val : DWord) : State :=
  let v := val.toNat % 2 ^ (8 * width)
  if !regWidthOk addr width then s
  else match regAt addr with
    | .pkg o => s.pkgWrite who o v
    | .home n => s.asRow who 0 val (.homecfgWrite who n val)
    | .res cid o => s.resWrite who cid o v
    | .pg cid o => s.pgRegWrite who cid o v
    | .port p o => if o = 0 then s.asRow who 0 val (.portEnable who p val) else if whoAdmin who then s else s.dropWrite who addr
    | .slot _ _ => if whoHsm who then s else s.dropWrite who addr
    | .clk d => s.asRow who 0 val (.clklockWrite who d val)
    | .ctx cid o => s.ctxWrite who cid o v
    | .bell q => s.asRow who 0 val (.doorbellWrite who q val)
    | .ap core ch o => s.apWrite who core ch o v
    | .mbx o => s.mbxWrite who o width v
    | .none => s

/-- REGISTER_WRITE (R15). -/
def execRegisterWrite (who : Who) (addr width : Nat) (val : DWord) (s : State) : Host.Outcome State Fault Refusal :=
  .next (s.regWrite who addr width val)

/-- HOMECFG_WRITE (R224): sixteen entries; one that names no partition shape is left as it is.  Line locks stay (log 118). -/
def execHomecfgWrite (who : Who) (n : Nat) (val : DWord) (s : State) : Host.Outcome State Fault Refusal :=
  .next (
    if !whoAdmin who ∨ 96 ≤ n then s.dropWrite who (hbmTop + 0x10000 + 8 * n)
    else
      { s with pkg := s.pkg.setHome n val })

end Sys2Proof.Machine
end

