-- ==== Sys2Proof/Machine/Hart.lean ====
section
/-!
DEFINITION. The memory accesses of the host-core harts (R15, R210, R257; log 15).
-/
namespace Sys2Proof.Machine

/-- The mark of a hart's write: its edge is a root (R267, R398). -/
def State.hartStamp (s : State) (h : Nat) : Nat := stampOf (s.rootEdge 0) (hartLid h)

/-- The new value of an AMO. -/
def amoNew (op w old x : Nat) : Nat :=
  let v (n : Nat) : Int := sextNat (8 * w) n
  match op with
  | 0 => (old + x) % 2 ^ (8 * w)
  | 1 => x
  | 2 => old &&& x
  | 3 => old ||| x
  | 4 => old ^^^ x
  | 5 => if v old ≤ v x then old else x
  | 6 => if v old ≤ v x then x else old
  | 7 => min old x
  | _ => max old x

/-- A value that a hart reads: free where a sector is marked. -/
def State.hartRead (s : State) (a w : Nat) : Nat × State :=
  let s := s.fill a
  if s.poisoned a w then let (x, s) := s.free; (x.toNat % 2 ^ (8 * w), s) else (s.rd a w, s)

/-- A hart's value as its register takes it. -/
def State.hartGive (s : State) (x : Nat) : State := { s with bus := .ofNat 64 x }

/-- An access in coherent memory. -/
def HartAccIn (a w : Nat) : Bool := decide (a + w ≤ hbmTop)

/-- An access of hart h in a mode.  Outside coherent memory, loads and stores are those of R15: of a register, under the mode; of PCIe space, whose
endpoints lie outside, a load gives a free value (log 26).  No other access is defined there: it reads 0 and writes nothing (log 15). -/
def State.hartAcc (s : State) (h : Nat) (md : HMode) : HartAcc → State
  | .load a w =>
    if HartAccIn a w then let (x, s) := s.hartRead a w; s.hartGive x
    else if inPcie a then let (x, s) := s.free; s.hartGive (x.toNat % 2 ^ (8 * w))
    else s.regLoad (.hart h md) a w
  | .store a w v => if HartAccIn a w then (s.fill a).wrN a w v.toNat (s.hartStamp h) else s.regWrite (.hart h md) a w v
  | .amo op a w v =>
    if !HartAccIn a w then s.hartGive 0
    else
      let (old, s) := s.hartRead a w
      (s.wrN a w (amoNew op w old (v.toNat % 2 ^ (8 * w))) (s.hartStamp h)).hartGive (wrapN 64 (sextNat (8 * w) old))
  | .lr a w =>
    if !HartAccIn a w then s.hartGive 0
    else
      let (x, s) := s.hartRead a w
      { s with hres := Tbl.set none s.hres h (some (a, w)) }.hartGive (wrapN 64 (sextNat (8 * w) x))
  | .sc a w v =>
    let held := match Tbl.get none s.hres h with | some (b, n) => b ≤ a && a + w ≤ b + n | none => false
    let s : State := { s with hres := Tbl.set none s.hres h none }
    if held && HartAccIn a w then ((s.fill a).wrN a w v.toNat (s.hartStamp h)).hartGive 0 else s.hartGive 1

/-- HART_MEMORY_ACCESS (R210): the value read, or whether a store-conditional failed, is what the model's `bus` then holds. -/
def execHartMemoryAccess (h : Nat) (acc : HartOp) (s : State) : Host.Outcome State Fault Refusal := .next (s.hartAcc h acc.mode acc.acc)

end Sys2Proof.Machine
end

