-- ==== Sys2Proof/Machine/Integer.lean ====
section
/-!
DEFINITION. Integer, logic and address instructions (R137 to R157).
-/
namespace Sys2Proof.Machine

/-- The exact sum of `IADD` and `IADDI` before wrapping or saturation (R141, R157). -/
def intSum (a b : Int) : Int := a + b

/-- A two-operand V3 word whose result is an integer of its type. -/
def intOp2 (f : V3) (op : Int → Int → Int) (_ : Env) (_ : Nat) (t : Thr) : List Word :=
  outInt f.t (op (t.int f.t f.a) (t.int f.t f.b))

/-- A two-operand V3 word that saturates when MOD bit 0 is set (R141). -/
def satOp2 (f : V3) (op : Int → Int → Int) (_ : Env) (_ : Nat) (t : Thr) : List Word :=
  outSat f.t (f.mod.getLsbD 0) (op (t.int f.t f.a) (t.int f.t f.b))

/-- A bitwise V3 word on operands of its width (R148). -/
def bitOp2 (f : V3) (op : BitVec 64 → BitVec 64 → BitVec 64) (_ : Env) (_ : Nat) (t : Thr) : List Word :=
  outInt f.t ((op (.ofNat 64 (t.nat f.t f.a)) (.ofNat 64 (t.nat f.t f.b))).toNat : Int)

/-- The floor of a quotient by a power of two (R149). -/
def shrInt (a : Int) (n : Nat) : Int := a / (2 ^ n : Int)

/-- `SHL` by `n`, of an operand of width `w` (R149). -/
def shlVal (w a n : Nat) : Nat := if n < w then a * 2 ^ n % 2 ^ w else 0
/-- `SHR` by `n`. -/
def shrVal (w a n : Nat) : Nat := if n < w then a / 2 ^ n else 0
/-- `SAR` by `n`. -/
def sarVal (w : Nat) (a : Int) (n : Nat) : Int := if n < w then shrInt a n else if a < 0 then -1 else 0
/-- `ROTL` by `n`. -/
def rotlVal (w a n : Nat) : Nat :=
  let k := n % w
  (a * 2 ^ k % 2 ^ w) + a / 2 ^ (w - k)

/-- Quotient and remainder of `IDIV` and `IREM` (R144), for a type with the given signedness and width. -/
def divRem (t : Ty) (a b : Int) : Int × Int :=
  if b = 0 then (-1, a)
  else if t.signed ∧ a = tyMin t ∧ b = -1 then (tyMin t, 0)
  else (a.tdiv b, a.tmod b)

/-- Bit `i` of `BFX`'s field (R151). -/
def bfxBit (t : Ty) (a p i : Nat) : Bool :=
  if p + i < opW t then a.testBit (p + i) else t.signed && a.testBit (opW t - 1)

/-- The field that `BFX` extracts (R151). -/
def bfxVal (t : Ty) (a ctl : Nat) : Int :=
  let len := min (bitsOf ctl 8 8) (opW t)
  let p := bitsOf ctl 0 8
  let x := (upto len).foldl (fun x i => if bfxBit t a p i then x + 2 ^ i else x) 0
  if t.signed ∧ 0 < len then sextNat len x else (x : Int)

/-- The word that `BFI` forms (R151). -/
def bfiVal (w a b ctl : Nat) : Nat :=
  let len := min (bitsOf ctl 8 8) w
  let p := bitsOf ctl 0 8
  (upto w).foldl (fun x j =>
    let bit := if p ≤ j ∧ j < p + len then b.testBit (j - p) else a.testBit j
    if bit then x + 2 ^ j else x) 0

/-- The number of 1 bits below width `w` (R152). -/
def popVal (w a : Nat) : Nat := (upto w).foldl (fun n i => if a.testBit i then n + 1 else n) 0
/-- The number of 0 bits above the highest 1 bit (R152). -/
def clzVal (w a : Nat) : Nat := (upto w).foldl (fun n i => if a.testBit i then w - 1 - i else n) w
/-- The number of 0 bits below the lowest 1 bit (R152). -/
def ctzVal (w a : Nat) : Nat := ((upto w).find? fun i => a.testBit i).getD w
/-- The bits reversed (R152). -/
def brevVal (w a : Nat) : Nat := (upto w).foldl (fun x i => if a.testBit i then x + 2 ^ (w - 1 - i) else x) 0

/-- Byte `i` of `PERMB` (R153). -/
def permByte (a b c : Nat) (i : Nat) : Nat :=
  let k := bitsOf c (8 * i) 8
  let y := bitsOf (a + 2 ^ 32 * b) (8 * (k % 8)) 8
  if k.testBit 4 then 0 else if k.testBit 3 then 255 - y else y

/-- The funnel shift (R150). -/
def funnel (a b c : Nat) : Nat := (a * 2 ^ 32 + b) * 2 ^ (c % 64) % 2 ^ 64 / 2 ^ 32

/-- `IADD` (R141). -/
def execIadd (f : V3) (s : State) : Host.Outcome State Fault Refusal :=
  runV3 (.iadd f) f (satOp2 f intSum) s

/-- `ISUB` (R141). -/
def execIsub (f : V3) (s : State) : Host.Outcome State Fault Refusal :=
  runV3 (.isub f) f (satOp2 f fun a b => a - b) s

/-- `IADDC` (R142): the sum in the low register, the carry in the high one. -/
def execIaddc (f : V3) (s : State) : Host.Outcome State Fault Refusal :=
  runV3 (.iaddc f) f (fun _ _ t => let r := addCarry (t.val f.a) (t.val f.b) (t.val f.c); [r.1, r.2]) s

/-- `ISUBB` (R142): the difference and the borrow. -/
def execIsubb (f : V3) (s : State) : Host.Outcome State Fault Refusal :=
  runV3 (.isubb f) f (fun _ _ t => let r := subBorrow (t.val f.a) (t.val f.b) (t.val f.c); [r.1, r.2]) s

/-- `INEG` (R141). -/
def execIneg (f : V3) (s : State) : Host.Outcome State Fault Refusal :=
  runV3 (.ineg f) f (fun _ _ t => outSat f.t (f.mod.getLsbD 0) (-(t.int f.t f.a))) s

/-- `IABS` (R141). -/
def execIabs (f : V3) (s : State) : Host.Outcome State Fault Refusal :=
  runV3 (.iabs f) f (fun _ _ t => outSat f.t (f.mod.getLsbD 0) ((t.int f.t f.a).natAbs : Int)) s

/-- `IMUL` (R143): the low W bits. -/
def execImul (f : V3) (s : State) : Host.Outcome State Fault Refusal :=
  runV3 (.imul f) f (intOp2 f fun a b => a * b) s

/-- `IMULH` (R143): the high W bits of the exact product. -/
def execImulh (f : V3) (s : State) : Host.Outcome State Fault Refusal :=
  runV3 (.imulh f) f (intOp2 f fun a b => shrInt (a * b) (opW f.t)) s

/-- `IMAD` (R143). -/
def execImad (f : V3) (s : State) : Host.Outcome State Fault Refusal :=
  runV3 (.imad f) f (fun _ _ t => outInt f.t (t.int f.t f.a * t.int f.t f.b + t.int f.t f.c)) s

/-- `IMADW` (R143): 32-bit factors, a 64-bit addend and result. -/
def execImadw (f : V3) (s : State) : Host.Outcome State Fault Refusal :=
  runV3 (.imadw f) f (fun _ _ t => words64 (.ofInt 64 (t.int f.t f.a * t.int f.t f.b + ((t.val64 f.c).toNat : Int)))) s

/-- `IDIV` (R144). -/
def execIdiv (f : V3) (s : State) : Host.Outcome State Fault Refusal :=
  runV3 (.idiv f) f (intOp2 f fun a b => (divRem f.t a b).1) s

/-- `IREM` (R144). -/
def execIrem (f : V3) (s : State) : Host.Outcome State Fault Refusal :=
  runV3 (.irem f) f (intOp2 f fun a b => (divRem f.t a b).2) s

/-- `IMIN` (R145). -/
def execImin (f : V3) (s : State) : Host.Outcome State Fault Refusal :=
  runV3 (.imin f) f (intOp2 f fun a b => if a < b then a else b) s

/-- `IMAX` (R145). -/
def execImax (f : V3) (s : State) : Host.Outcome State Fault Refusal :=
  runV3 (.imax f) f (intOp2 f fun a b => if a < b then b else a) s

/-- `ICMP` (R146). -/
def execIcmp (f : V3) (s : State) : Host.Outcome State Fault Refusal :=
  runV3 (.icmp f) f (fun _ _ t => outBool (intCond f.mod.toNat (t.int f.t f.a) (t.int f.t f.b))) s

/-- `ISEL` (R147). -/
def execIsel (f : V3) (s : State) : Host.Outcome State Fault Refusal :=
  runV3 (.isel f) f (fun _ _ t => outInt f.t (if (t.val f.c).getLsbD 0 then (t.nat f.t f.a : Int) else (t.nat f.t f.b : Int))) s

/-- `AND` (R148). -/
def execAndL (f : V3) (s : State) : Host.Outcome State Fault Refusal :=
  runV3 (.andL f) f (bitOp2 f fun a b => a &&& b) s

/-- `OR` (R148). -/
def execOrL (f : V3) (s : State) : Host.Outcome State Fault Refusal :=
  runV3 (.orL f) f (bitOp2 f fun a b => a ||| b) s

/-- `XOR` (R148). -/
def execXorL (f : V3) (s : State) : Host.Outcome State Fault Refusal :=
  runV3 (.xorL f) f (bitOp2 f fun a b => a ^^^ b) s

/-- `ANDN` (R148). -/
def execAndn (f : V3) (s : State) : Host.Outcome State Fault Refusal :=
  runV3 (.andn f) f (bitOp2 f fun a b => a &&& ~~~b) s

/-- `ORN` (R148). -/
def execOrn (f : V3) (s : State) : Host.Outcome State Fault Refusal :=
  runV3 (.orn f) f (bitOp2 f fun a b => a ||| ~~~b) s

/-- `SHL` (R149). -/
def execShl (f : V3) (s : State) : Host.Outcome State Fault Refusal :=
  runV3 (.shl f) f (fun _ _ t => outInt f.t (shlVal (opW f.t) (t.nat f.t f.a) (t.val f.b).toNat : Nat)) s

/-- `SHR` (R149). -/
def execShr (f : V3) (s : State) : Host.Outcome State Fault Refusal :=
  runV3 (.shr f) f (fun _ _ t => outInt f.t (shrVal (opW f.t) (t.nat f.t f.a) (t.val f.b).toNat : Nat)) s

/-- `SAR` (R149). -/
def execSar (f : V3) (s : State) : Host.Outcome State Fault Refusal :=
  runV3 (.sar f) f (fun _ _ t => outInt f.t (sarVal (opW f.t) (t.int f.t f.a) (t.val f.b).toNat)) s

/-- `ROTL` (R149). -/
def execRotl (f : V3) (s : State) : Host.Outcome State Fault Refusal :=
  runV3 (.rotl f) f (fun _ _ t => outInt f.t (rotlVal (opW f.t) (t.nat f.t f.a) (t.val f.b).toNat : Nat)) s

/-- `FUNL` (R150). -/
def execFunl (f : V3) (s : State) : Host.Outcome State Fault Refusal :=
  runV3 (.funl f) f (fun _ _ t => [.ofNat 32 (funnel (t.val f.a).toNat (t.val f.b).toNat (t.val f.c).toNat)]) s

/-- `BFX` (R151). -/
def execBfx (f : V3) (s : State) : Host.Outcome State Fault Refusal :=
  runV3 (.bfx f) f (fun _ _ t => outInt f.t (bfxVal f.t (t.nat f.t f.a) (t.val f.b).toNat)) s

/-- `BFI` (R151). -/
def execBfi (f : V3) (s : State) : Host.Outcome State Fault Refusal :=
  runV3 (.bfi f) f (fun _ _ t => outInt f.t (bfiVal (opW f.t) (t.nat f.t f.a) (t.nat f.t f.b) (t.val f.c).toNat : Nat)) s

/-- `POPC` (R152). -/
def execPopc (f : V3) (s : State) : Host.Outcome State Fault Refusal :=
  runV3 (.popc f) f (fun _ _ t => [.ofNat 32 (popVal (opW f.t) (t.nat f.t f.a))]) s

/-- `CLZ` (R152). -/
def execClz (f : V3) (s : State) : Host.Outcome State Fault Refusal :=
  runV3 (.clz f) f (fun _ _ t => [.ofNat 32 (clzVal (opW f.t) (t.nat f.t f.a))]) s

/-- `CTZ` (R152). -/
def execCtz (f : V3) (s : State) : Host.Outcome State Fault Refusal :=
  runV3 (.ctz f) f (fun _ _ t => [.ofNat 32 (ctzVal (opW f.t) (t.nat f.t f.a))]) s

/-- `BREV` (R152). -/
def execBrev (f : V3) (s : State) : Host.Outcome State Fault Refusal :=
  runV3 (.brev f) f (fun _ _ t => outInt f.t (brevVal (opW f.t) (t.nat f.t f.a) : Nat)) s

/-- `PERMB` (R153). -/
def execPermb (f : V3) (s : State) : Host.Outcome State Fault Refusal :=
  runV3 (.permb f) f (fun _ _ t => 
    let p := permByte (t.val f.a).toNat (t.val f.b).toNat (t.val f.c).toNat
    [.ofNat 32 (p 0 + 2 ^ 8 * p 1 + 2 ^ 16 * p 2 + 2 ^ 24 * p 3)]) s

/-- `LEA` (R156): base pair plus the index shifted by MOD bits 2:0. -/
def execLea (f : V3) (s : State) : Host.Outcome State Fault Refusal :=
  runV3 (.lea f) f (fun _ _ t => words64 (.ofInt 64 (((t.val64 f.a).toNat : Int) + t.int f.t f.b * 2 ^ f.mod.toNat))) s

/-- `MOV` (R154): the bits unchanged. -/
def execMov (f : V3) (s : State) : Host.Outcome State Fault Refusal :=
  runV3 (.mov f) f (fun _ _ t => outInt f.t (t.nat f.t f.a : Nat)) s

/-- `MOVI` (R155): one register, or a pair with a zero high word. -/
def execMovi (f : L32) (s : State) : Host.Outcome State Fault Refusal :=
  runReg (.movi f) f.d (fun _ _ _ => if f.t2 = 3 then [f.imm, 0] else [f.imm]) s

/-- `MOVH` (R155): the high register of a pair; the low one keeps its value. -/
def execMovh (f : L32) (s : State) : Host.Outcome State Fault Refusal :=
  runReg (.movh f) f.d (fun _ _ t => [t.val f.d, f.imm]) s

/-- `IADDI` (R157). -/
def execIaddi (f : I24) (s : State) : Host.Outcome State Fault Refusal :=
  runReg (.iaddi f) f.d (fun _ _ t => outSat f.t (f.mod == 1) (intSum (t.int f.t f.a) (immInt f.t f.imm))) s

/-- `ICMPI` (R146). -/
def execIcmpi (f : I24) (s : State) : Host.Outcome State Fault Refusal :=
  runReg (.icmpi f) f.d (fun _ _ t => outBool (intCond (icmpiCond f.mod.toNat) (t.int f.t f.a) (immInt f.t f.imm))) s

/-- `ANDI` (R157): with the immediate sign-extended to the width. -/
def execAndi (f : I24) (s : State) : Host.Outcome State Fault Refusal :=
  runReg (.andi f) f.d (fun _ _ t => outInt f.t (((BitVec.ofNat 64 (t.nat f.t f.a)) &&& f.imm.signExtend 64).toNat : Int)) s

/-- `ORI` (R157): with the immediate sign-extended to the width. -/
def execOri (f : I24) (s : State) : Host.Outcome State Fault Refusal :=
  runReg (.ori f) f.d (fun _ _ t => outInt f.t (((BitVec.ofNat 64 (t.nat f.t f.a)) ||| f.imm.signExtend 64).toNat : Int)) s

/-- `XORI` (R157): with the immediate sign-extended to the width. -/
def execXori (f : I24) (s : State) : Host.Outcome State Fault Refusal :=
  runReg (.xori f) f.d (fun _ _ t => outInt f.t (((BitVec.ofNat 64 (t.nat f.t f.a)) ^^^ f.imm.signExtend 64).toNat : Int)) s

/-- `SHLI` (R157). -/
def execShli (f : I24) (s : State) : Host.Outcome State Fault Refusal :=
  runReg (.shli f) f.d (fun _ _ t => outInt f.t (shlVal (opW f.t) (t.nat f.t f.a) f.imm.toNat : Nat)) s

/-- `SHRI` (R157). -/
def execShri (f : I24) (s : State) : Host.Outcome State Fault Refusal :=
  runReg (.shri f) f.d (fun _ _ t => outInt f.t (shrVal (opW f.t) (t.nat f.t f.a) f.imm.toNat : Nat)) s

/-- `SARI` (R157). -/
def execSari (f : I24) (s : State) : Host.Outcome State Fault Refusal :=
  runReg (.sari f) f.d (fun _ _ t => outInt f.t (sarVal (opW f.t) (t.int f.t f.a) f.imm.toNat)) s

end Sys2Proof.Machine
end

