-- ==== Sys2Proof/Machine/Dispatch.lean ====
section
/-!
DEFINITION. The dispatch of an instruction to its meaning: one arm per constructor of `Instr`.
-/
namespace Sys2Proof.Machine

def exec (i : Instr) (s : State) : Host.Outcome State Fault Refusal :=
  match i with
  | .registerWrite who addr width val => Sys2Proof.Machine.execRegisterWrite who addr width val s
  | .rcCounterRead who span => Sys2Proof.Machine.execRcCounterRead who span s
  | .destroyDrainComplete cid => Sys2Proof.Machine.execDestroyDrainComplete cid s
  | .ctxDispatch dies => Sys2Proof.Machine.execCtxDispatch dies s
  | .sliceExpire cid => Sys2Proof.Machine.execSliceExpire cid s
  | .ptmoExpire cid => Sys2Proof.Machine.execPtmoExpire cid s
  | .preemptTake tid => Sys2Proof.Machine.execPreemptTake tid s
  | .saveComplete cid => Sys2Proof.Machine.execSaveComplete cid s
  | .ctxRestore cid => Sys2Proof.Machine.execCtxRestore cid s
  | .queueEnable who q => Sys2Proof.Machine.execQueueEnable who q s
  | .queueDisable who q => Sys2Proof.Machine.execQueueDisable who q s
  | .resetQueue who qcmd q => Sys2Proof.Machine.execResetQueue who qcmd q s
  | .resetEngine who tgt => Sys2Proof.Machine.execResetEngine who tgt s
  | .resetPartition who tgt => Sys2Proof.Machine.execResetPartition who tgt s
  | .resetDie who tgt => Sys2Proof.Machine.execResetDie who tgt s
  | .resetFunction who tgt => Sys2Proof.Machine.execResetFunction who tgt s
  | .resetDevice who => Sys2Proof.Machine.execResetDevice who s
  | .doorbellWrite who q val => Sys2Proof.Machine.execDoorbellWrite who q val s
  | .ingressKeyWrite who n val => Sys2Proof.Machine.execIngressKeyWrite who n val s
  | .commandFrame frame => Sys2Proof.Machine.execCommandFrame frame s
  | .queueMap q die thr => Sys2Proof.Machine.execQueueMap q die thr s
  | .queueUnmap q disable => Sys2Proof.Machine.execQueueUnmap q disable s
  | .nopPacket q p => Sys2Proof.Machine.execNopPacket q p s
  | .launch q p => Sys2Proof.Machine.execLaunch q p s
  | .waitPacket q p => Sys2Proof.Machine.execWaitPacket q p s
  | .watchWake q => Sys2Proof.Machine.execWatchWake q s
  | .signal q p => Sys2Proof.Machine.execSignal q p s
  | .copyPacket q p => Sys2Proof.Machine.execCopyPacket q p s
  | .loadsched q p => Sys2Proof.Machine.execLoadsched q p s
  | .runsched q p => Sys2Proof.Machine.execRunsched q p s
  | .depend q p => Sys2Proof.Machine.execDepend q p s
  | .stepmark q p => Sys2Proof.Machine.execStepmark q p s
  | .publish q p => Sys2Proof.Machine.execPublish q p s
  | .collect q p => Sys2Proof.Machine.execCollect q p s
  | .blockPlace gid => Sys2Proof.Machine.execBlockPlace gid s
  | .clusterWakeDone cl => Sys2Proof.Machine.execClusterWakeDone cl s
  | .clusterGate cl => Sys2Proof.Machine.execClusterGate cl s
  | .blockRetire bid => Sys2Proof.Machine.execBlockRetire bid s
  | .clauseIssue core => Sys2Proof.Machine.execClauseIssue core s
  | .handlerEnter tid => Sys2Proof.Machine.execHandlerEnter tid s
  | .haltTake tid => Sys2Proof.Machine.execHaltTake tid s
  | .sleepWake tid => Sys2Proof.Machine.execSleepWake tid s
  | .memoryReturn tid k => Sys2Proof.Machine.execMemoryReturn tid k s
  | .mmaComplete core => Sys2Proof.Machine.execMmaComplete core s
  | .btuElement core ch n => Sys2Proof.Machine.execBtuElement core ch n s
  | .apertureStart who core ch val => Sys2Proof.Machine.execApertureStart who core ch val s
  | .apertureCancel who core ch val => Sys2Proof.Machine.execApertureCancel who core ch val s
  | .recAccept k => Sys2Proof.Machine.execRecAccept k s
  | .collectTimer dies node => Sys2Proof.Machine.execCollectTimer dies node s
  | .migrateSwitch asid page => Sys2Proof.Machine.execMigrateSwitch asid page s
  | .homecfgWrite who n val => Sys2Proof.Machine.execHomecfgWrite who n val s
  | .rrctlWrite who cid n val => Sys2Proof.Machine.execRrctlWrite who cid n val s
  | .priceDataWrite who val => Sys2Proof.Machine.execPriceDataWrite who val s
  | .clklockWrite who die val => Sys2Proof.Machine.execClklockWrite who die val s
  | .clockRelockDone die => Sys2Proof.Machine.execClockRelockDone die s
  | .governorInterval u => Sys2Proof.Machine.execGovernorInterval u s
  | .ballastHintFetch die => Sys2Proof.Machine.execBallastHintFetch die s
  | .ballastScrubLine die => Sys2Proof.Machine.execBallastScrubLine die s
  | .selfTestStep core ok => Sys2Proof.Machine.execSelfTestStep core ok s
  | .droopDetect die => Sys2Proof.Machine.execDroopDetect die s
  | .droopRecover die => Sys2Proof.Machine.execDroopRecover die s
  | .sensorSample sn => Sys2Proof.Machine.execSensorSample sn s
  | .portEnable who p val => Sys2Proof.Machine.execPortEnable who p val s
  | .linkTrainEnd p id => Sys2Proof.Machine.execLinkTrainEnd p id s
  | .lossOfSignal p => Sys2Proof.Machine.execLossOfSignal p s
  | .flitReceive p seq flit => Sys2Proof.Machine.execFlitReceive p seq flit s
  | .fabricRequestArrive a => Sys2Proof.Machine.execFabricRequestArrive a s
  | .fabricResponseArrive a => Sys2Proof.Machine.execFabricResponseArrive a s
  | .custodyAck a => Sys2Proof.Machine.execCustodyAck a s
  | .endToEndAck a => Sys2Proof.Machine.execEndToEndAck a s
  | .nakArrive a => Sys2Proof.Machine.execNakArrive a s
  | .custodyTimeout tag => Sys2Proof.Machine.execCustodyTimeout tag s
  | .sourceDeadline tag => Sys2Proof.Machine.execSourceDeadline tag s
  | .pintArrive a => Sys2Proof.Machine.execPintArrive a s
  | .edgeqArrive a => Sys2Proof.Machine.execEdgeqArrive a s
  | .signalIncrementArrive a => Sys2Proof.Machine.execSignalIncrementArrive a s
  | .roceReceive slot rank op => Sys2Proof.Machine.execRoceReceive slot rank op s
  | .timeSync ns => Sys2Proof.Machine.execTimeSync ns s
  | .scheduleStart eng => Sys2Proof.Machine.execScheduleStart eng s
  | .trussWake slot => Sys2Proof.Machine.execTrussWake slot s
  | .scheduleDone slot => Sys2Proof.Machine.execScheduleDone slot s
  | .scheduleWatchdog slot => Sys2Proof.Machine.execScheduleWatchdog slot s
  | .stepMarkArrive cid step edge thr => Sys2Proof.Machine.execStepMarkArrive cid step edge thr s
  | .criticalPathWalk cid => Sys2Proof.Machine.execCriticalPathWalk cid s
  | .powerOn => Sys2Proof.Machine.execPowerOn s
  | .recoveryImagePush bytes => Sys2Proof.Machine.execRecoveryImagePush bytes s
  | .iadd f => Sys2Proof.Machine.execIadd f s
  | .isub f => Sys2Proof.Machine.execIsub f s
  | .iaddc f => Sys2Proof.Machine.execIaddc f s
  | .isubb f => Sys2Proof.Machine.execIsubb f s
  | .ineg f => Sys2Proof.Machine.execIneg f s
  | .iabs f => Sys2Proof.Machine.execIabs f s
  | .imul f => Sys2Proof.Machine.execImul f s
  | .imulh f => Sys2Proof.Machine.execImulh f s
  | .imad f => Sys2Proof.Machine.execImad f s
  | .imadw f => Sys2Proof.Machine.execImadw f s
  | .idiv f => Sys2Proof.Machine.execIdiv f s
  | .irem f => Sys2Proof.Machine.execIrem f s
  | .imin f => Sys2Proof.Machine.execImin f s
  | .imax f => Sys2Proof.Machine.execImax f s
  | .icmp f => Sys2Proof.Machine.execIcmp f s
  | .isel f => Sys2Proof.Machine.execIsel f s
  | .andL f => Sys2Proof.Machine.execAndL f s
  | .orL f => Sys2Proof.Machine.execOrL f s
  | .xorL f => Sys2Proof.Machine.execXorL f s
  | .andn f => Sys2Proof.Machine.execAndn f s
  | .orn f => Sys2Proof.Machine.execOrn f s
  | .shl f => Sys2Proof.Machine.execShl f s
  | .shr f => Sys2Proof.Machine.execShr f s
  | .sar f => Sys2Proof.Machine.execSar f s
  | .rotl f => Sys2Proof.Machine.execRotl f s
  | .funl f => Sys2Proof.Machine.execFunl f s
  | .bfx f => Sys2Proof.Machine.execBfx f s
  | .bfi f => Sys2Proof.Machine.execBfi f s
  | .popc f => Sys2Proof.Machine.execPopc f s
  | .clz f => Sys2Proof.Machine.execClz f s
  | .ctz f => Sys2Proof.Machine.execCtz f s
  | .brev f => Sys2Proof.Machine.execBrev f s
  | .permb f => Sys2Proof.Machine.execPermb f s
  | .lea f => Sys2Proof.Machine.execLea f s
  | .mov f => Sys2Proof.Machine.execMov f s
  | .movi f => Sys2Proof.Machine.execMovi f s
  | .movh f => Sys2Proof.Machine.execMovh f s
  | .iaddi f => Sys2Proof.Machine.execIaddi f s
  | .icmpi f => Sys2Proof.Machine.execIcmpi f s
  | .andi f => Sys2Proof.Machine.execAndi f s
  | .ori f => Sys2Proof.Machine.execOri f s
  | .xori f => Sys2Proof.Machine.execXori f s
  | .shli f => Sys2Proof.Machine.execShli f s
  | .shri f => Sys2Proof.Machine.execShri f s
  | .sari f => Sys2Proof.Machine.execSari f s
  | .fadd f => Sys2Proof.Machine.execFadd f s
  | .fsub f => Sys2Proof.Machine.execFsub f s
  | .fmul f => Sys2Proof.Machine.execFmul f s
  | .ffma f => Sys2Proof.Machine.execFfma f s
  | .fmin f => Sys2Proof.Machine.execFmin f s
  | .fmax f => Sys2Proof.Machine.execFmax f s
  | .fminm f => Sys2Proof.Machine.execFminm f s
  | .fmaxm f => Sys2Proof.Machine.execFmaxm f s
  | .fcmp f => Sys2Proof.Machine.execFcmp f s
  | .fclass f => Sys2Proof.Machine.execFclass f s
  | .frnd f => Sys2Proof.Machine.execFrnd f s
  | .fscale f => Sys2Proof.Machine.execFscale f s
  | .fexpx f => Sys2Proof.Machine.execFexpx f s
  | .fdiv f => Sys2Proof.Machine.execFdiv f s
  | .fsqrt f => Sys2Proof.Machine.execFsqrt f s
  | .frcp f => Sys2Proof.Machine.execFrcp f s
  | .frsq f => Sys2Proof.Machine.execFrsq f s
  | .fexp2 f => Sys2Proof.Machine.execFexp2 f s
  | .flog2 f => Sys2Proof.Machine.execFlog2 f s
  | .fsinp f => Sys2Proof.Machine.execFsinp f s
  | .fcosp f => Sys2Proof.Machine.execFcosp f s
  | .ftanh f => Sys2Proof.Machine.execFtanh f s
  | .fdot2 f => Sys2Proof.Machine.execFdot2 f s
  | .cvt f => Sys2Proof.Machine.execCvt f s
  | .cvtp f => Sys2Proof.Machine.execCvtp f s
  | .cvtq f => Sys2Proof.Machine.execCvtq f s
  | .cbx f => Sys2Proof.Machine.execCbx f s
  | .shfl f => Sys2Proof.Machine.execShfl f s
  | .qswap f => Sys2Proof.Machine.execQswap f s
  | .qbc f => Sys2Proof.Machine.execQbc f s
  | .vote f => Sys2Proof.Machine.execVote f s
  | .matchV f => Sys2Proof.Machine.execMatchV f s
  | .xred f => Sys2Proof.Machine.execXred f s
  | .xscan f => Sys2Proof.Machine.execXscan f s
  | .lmask f => Sys2Proof.Machine.execLmask f s
  | .ld f => Sys2Proof.Machine.execLd f s
  | .st f => Sys2Proof.Machine.execSt f s
  | .atom f => Sys2Proof.Machine.execAtom f s
  | .ared f => Sys2Proof.Machine.execAred f s
  | .fld f => Sys2Proof.Machine.execFld f s
  | .fst f => Sys2Proof.Machine.execFst f s
  | .fatom f => Sys2Proof.Machine.execFatom f s
  | .mcst f => Sys2Proof.Machine.execMcst f s
  | .tld f => Sys2Proof.Machine.execTld f s
  | .tst f => Sys2Proof.Machine.execTst f s
  | .pref f => Sys2Proof.Machine.execPref f s
  | .cctl f => Sys2Proof.Machine.execCctl f s
  | .fence f => Sys2Proof.Machine.execFence f s
  | .recW f => Sys2Proof.Machine.execRecW f s
  | .binit f => Sys2Proof.Machine.execBinit f s
  | .barv f => Sys2Proof.Machine.execBarv f s
  | .barx f => Sys2Proof.Machine.execBarx f s
  | .bdrop f => Sys2Proof.Machine.execBdrop f s
  | .bwait f => Sys2Proof.Machine.execBwait f s
  | .btest f => Sys2Proof.Machine.execBtest f s
  | .bxc f => Sys2Proof.Machine.execBxc f s
  | .bxs f => Sys2Proof.Machine.execBxs f s
  | .tmpl f => Sys2Proof.Machine.execTmpl f s
  | .pub f => Sys2Proof.Machine.execPub f s
  | .bxcan f => Sys2Proof.Machine.execBxcan f s
  | .mma f => Sys2Proof.Machine.execMma f s
  | .jset f => Sys2Proof.Machine.execJset f s
  | .jclr f => Sys2Proof.Machine.execJclr f s
  | .cbld f => Sys2Proof.Machine.execCbld f s
  | .nop f => Sys2Proof.Machine.execNop f s
  | .bra f => Sys2Proof.Machine.execBra f s
  | .brx f => Sys2Proof.Machine.execBrx f s
  | .call f => Sys2Proof.Machine.execCall f s
  | .ret f => Sys2Proof.Machine.execRet f s
  | .exit f => Sys2Proof.Machine.execExit f s
  | .yield f => Sys2Proof.Machine.execYield f s
  | .sleep f => Sys2Proof.Machine.execSleep f s
  | .trap f => Sys2Proof.Machine.execTrap f s
  | .bkpt f => Sys2Proof.Machine.execBkpt f s
  | .step f => Sys2Proof.Machine.execStep f s
  | .tracew f => Sys2Proof.Machine.execTracew f s
  | .s2v f => Sys2Proof.Machine.execS2v f s
  | .v2s f => Sys2Proof.Machine.execV2s f s
  | .rft f => Sys2Proof.Machine.execRft f s
  | .kswap f => Sys2Proof.Machine.execKswap f s
  | .tsr f => Sys2Proof.Machine.execTsr f s
  | .tsw f => Sys2Proof.Machine.execTsw f s
  | .haltg f => Sys2Proof.Machine.execHaltg f s
  | .tlbi f => Sys2Proof.Machine.execTlbi f s
  | .tokq f => Sys2Proof.Machine.execTokq f s
  | .intent f => Sys2Proof.Machine.execIntent f s
  | .ballast f => Sys2Proof.Machine.execBallast f s
  | .trussNop f => Sys2Proof.Machine.execTrussNop f s
  | .trussMovi f => Sys2Proof.Machine.execTrussMovi f s
  | .trussAddi f => Sys2Proof.Machine.execTrussAddi f s
  | .trussAdd f => Sys2Proof.Machine.execTrussAdd f s
  | .trussMuli f => Sys2Proof.Machine.execTrussMuli f s
  | .trussPeer f => Sys2Proof.Machine.execTrussPeer f s
  | .trussParam f => Sys2Proof.Machine.execTrussParam f s
  | .trussChunk f => Sys2Proof.Machine.execTrussChunk f s
  | .trussBra f => Sys2Proof.Machine.execTrussBra f s
  | .trussBnz f => Sys2Proof.Machine.execTrussBnz f s
  | .trussLoop f => Sys2Proof.Machine.execTrussLoop f s
  | .trussWait f => Sys2Proof.Machine.execTrussWait f s
  | .trussSig f => Sys2Proof.Machine.execTrussSig f s
  | .trussBar f => Sys2Proof.Machine.execTrussBar f s
  | .trussFin f => Sys2Proof.Machine.execTrussFin f s
  | .trussTrap f => Sys2Proof.Machine.execTrussTrap f s
  | .trussSend f => Sys2Proof.Machine.execTrussSend f s
  | .trussRecv f => Sys2Proof.Machine.execTrussRecv f s
  | .trussRed f => Sys2Proof.Machine.execTrussRed f s
  | .trussRedsend f => Sys2Proof.Machine.execTrussRedsend f s
  | .trussCopy f => Sys2Proof.Machine.execTrussCopy f s
  | .trussMcast f => Sys2Proof.Machine.execTrussMcast f s
  | .matrixUnitStart core => Sys2Proof.Machine.execMatrixUnitStart core s
  | .hartMemoryAccess h acc => Sys2Proof.Machine.execHartMemoryAccess h acc s
  | .ctxCreate => Sys2Proof.Machine.execCtxCreate s
  | .ctxBind => Sys2Proof.Machine.execCtxBind s
  | .ctxEnable => Sys2Proof.Machine.execCtxEnable s
  | .ctxPreempt => Sys2Proof.Machine.execCtxPreempt s
  | .ctxDisable => Sys2Proof.Machine.execCtxDisable s
  | .ctxUnbind => Sys2Proof.Machine.execCtxUnbind s
  | .ctxDestroy => Sys2Proof.Machine.execCtxDestroy s
  | .pgPin => Sys2Proof.Machine.execPgPin s
  | .pgUnpin => Sys2Proof.Machine.execPgUnpin s
  | .pgShadow => Sys2Proof.Machine.execPgShadow s
  | .pgUnshadow => Sys2Proof.Machine.execPgUnshadow s
  | .pgMigrate => Sys2Proof.Machine.execPgMigrate s
  | .pgUnmap => Sys2Proof.Machine.execPgUnmap s
  | .pgTag => Sys2Proof.Machine.execPgTag s
  | .pgUnpoison => Sys2Proof.Machine.execPgUnpoison s
  | .pgResolve => Sys2Proof.Machine.execPgResolve s
  | .pgForceunmap => Sys2Proof.Machine.execPgForceunmap s
  | .pgQuery => Sys2Proof.Machine.execPgQuery s
  | .bucketTick => Sys2Proof.Machine.execBucketTick s
  | .thermalStepMove => Sys2Proof.Machine.execThermalStepMove s
  | .sd0Loss => Sys2Proof.Machine.execSd0Loss s
  | .sidebandSilence => Sys2Proof.Machine.execSidebandSilence s
  | .version => Sys2Proof.Machine.execVersion s
  | .attest => Sys2Proof.Machine.execAttest s
  | .extend => Sys2Proof.Machine.execExtend s
  | .setpkey => Sys2Proof.Machine.execSetpkey s
  | .rasread => Sys2Proof.Machine.execRasread s
  | .sensors => Sys2Proof.Machine.execSensors s
  | .recover => Sys2Proof.Machine.execRecover s
  | .setpart => Sys2Proof.Machine.execSetpart s
  | .debugHalt => Sys2Proof.Machine.execDebugHalt s
  | .debugResume => Sys2Proof.Machine.execDebugResume s
  | .debugStep1 => Sys2Proof.Machine.execDebugStep1 s
  | .debugStatus => Sys2Proof.Machine.execDebugStatus s
  | .debugEvents => Sys2Proof.Machine.execDebugEvents s
  | .powerLoss => Sys2Proof.Machine.execPowerLoss s

end Sys2Proof.Machine
end

