-- ==== Sys2Proof/Machine/Turn.lean ====
section
/-!
DEFINITION. Whose turn it is (log 2): the move at the head of the agenda becomes the instruction that runs next, or acts by itself; when no move
waits, a round of what the agents of the package may do follows, and package time goes on.  Also where an instruction is placed so that it runs
next (log 3).
-/
namespace Sys2Proof.Machine

/-- What a move comes to: an instruction to execute in a state, or the state it leaves. -/
inductive Next where
  | run (i : Instr) (s : State)
  | done (s : State)

/-! ### Errors that arise (R118, R256, R416) -/

/-- A register word is in error, correctable or not, and the error is not yet found (R118). -/
def State.regError (s : State) (soft : Bool) (bid gang pair reg : Nat) : State :=
  s.modGg (32 * bid + gang % 32) fun g =>
    let k := 256 * (pair % 16) + reg % 256
    if soft then (if g.soft.contains k then g else { g with soft := g.soft ++ [k] })
    else if g.latent.contains k || g.poison.contains k then g else { g with latent := g.latent ++ [k] }

/-- An error arises in a sector: one that can be corrected stays there until scrub finds it; for another the sector is marked, and the mark logged
(R256, R335, R417). -/
def State.memError (s : State) (soft : Bool) (k : Nat) : State :=
  if soft then (if s.soft.contains k then s else { s with soft := s.soft ++ [k] }) else (s.markSector k).ras 4 3 0 (32 * k)

/-- An error leaves another stored tag with a line of memory (R416): the access that next reads the line finds it. -/
def State.tagError (s : State) (line : Nat) (tag : BitVec 32) : State :=
  if line < hbmTop / 128 ∧ tag ≠ crc32c (s.bytes (128 * line) 128) then { s with tags := Tbl.set none s.tags line (some tag) } else s

/-! ### Time -/

/-- The clock of a die, MHz: 2,000 (R2), or the locked one while a lock holds (R341). -/
def Die.mhz (d : Die) : Nat := if d.lka then d.fmhz else 2000

/-- The core cycles that a die delivers in some nanoseconds: none while its clock relocks (R341).  A stretched clock delivers between half of them and
all (R338); which, the spec leaves open (log 88): `x` is a free value. -/
def Die.gain (d : Die) (t ns x : Nat) : Nat :=
  let all := d.mhz * (t + ns) / 1000 - d.mhz * t / 1000
  if d.relock then 0 else if d.droop then all - x % (all / 2 + 1) else all

/-- What waited for room is tried again: signal updates and PINTs, and the operations of schedules (R219, R357, R385). -/
def State.flushSends (s : State) : State :=
  (s.slot.filter fun x => !x.2.todo.isEmpty).foldl (fun s x => s.tFlush x.1) s.flushSigs.flushPints

/-- A write of the hardware that waited for a page is performed (R264), or what waited with it is tried again; one whose page has gone since is not. -/
def State.lateWrite (s : State) : Move → State
  | .put cid va bs edge => (s.hwWrite cid va bs edge).getD s
  | .post cid va n => match s.hwLoc cid va true with | (some l, s) => s.post l va cid n | (none, s) => s
  | .deliver cid va n lid edge => match s.hwLoc cid va true with | (some l, s) => s.deliver l va cid n lid edge | (none, s) => s
  | .signals => s.flushSigs
  | .sends n => s.tFlush n
  | .ingress _ bs => s.commandIn bs
  | .redirect r => { s with fab := { s.fab with redir := r } }
  | _ => s

/-- Package time goes on: the cycles of the dies, the cycles of cores in a token stall (R328), the fill of the package bucket (R327), fault records that
waited for a free slot (R259), requests that waited for room, and page commands that are complete (R263). -/
def State.elapse (s : State) (ns : Nat) : State :=
  let gain (d : Nat) : Nat := (s.di d).gain s.time ns (Config.freeValue (s.fresh + d)).toNat
  let t : State := { s with
    time := s.time + ns
    fresh := s.fresh + 4
    core := s.core.map fun (x : Nat × Core) =>
      (x.1, if s.stalledOn x.1 then { x.2 with tokstall := x.2.tokstall + gain (coreDie x.1), stalled := x.2.stalled + gain (coreDie x.1) } else x.2)
    pow := { s.pow with bucket := s.pow.bucket + (s.pow.fill * ns * 256 : Nat) } }
  ([0, 1, 2, 3].foldl (fun (s : State) d => s.modDi d fun x => { x with cycles := x.cycles + gain d }) t).flushFaults.flushSends.endCmds

/-! ### A round (log 2) -/

/-- The wakes of queues that no CP thread serves, or that are being unmapped (R55, R60): of a watch that has been hit, and of one at another device,
whose moment is that device's: a free value (log 43). -/
def State.wakeMoves (s : State) : List Move :=
  (s.watch.filter fun x =>
    (!(s.qv x.1).mapped || (s.qv x.1).qst == 4) &&
      (x.2.hit || (x.2.far.isSome && (Config.freeValue (s.fresh + 64 + x.1)).toNat % 2 == 1))).map fun x => Move.event (.watchWake x.1)

/-- The events of the dies' CPs and of the queues (R55, R58, R59). -/
def State.queueMoves (s : State) : List Move :=
  s.wakeMoves ++ if s.q.isEmpty then []
  else
    let maps : List Move := [0, 1, 2, 3].flatMap fun d => match s.bestCandidate d, (upto 32).find? (s.slotFree d) with
      | some q, some t => [Move.event (.queueMap q d t)]
      | _, _ => []
    let mine := s.q.filter fun x => x.2.mapped
    maps ++ (mine.filter fun x => s.mayEvict x.1).map (fun x => Move.event (.queueUnmap x.1 false)) ++ mine.map fun x => Move.cp x.1

/-- The events of contexts, grids, collectors and migrations (R32 to R37, R101, R264, R308). -/
def State.ctxMoves (s : State) : List Move :=
  (s.ctx.flatMap fun x =>
    if x.2.state = 4 then [Move.event (.sliceExpire x.1)]
    else if x.2.state = 5 then [Move.event (.saveComplete x.1), .event (.ptmoExpire x.1)]
    else if x.2.state = 8 then [Move.event (.destroyDrainComplete x.1)] else []) ++
  (if s.ctx.isEmpty then [] else s.layout.map fun m => Move.event (.ctxDispatch m)) ++
  ((s.grid.filter fun x => x.2.live && !x.2.saved && decide (x.2.next < x.2.total)).map fun x => Move.event (.blockPlace x.1)) ++
  ((s.node.filter fun x => !x.2.gathers.isEmpty).map fun x => Move.event (.collectTimer (x.1 / 256) (x.1 % 256))) ++
  ((s.held.filter fun x => x.2.st == 3).map fun x => Move.event (.migrateSwitch (x.1 / 2 ^ 40) (x.1 % 2 ^ 40 * 2 ^ 16))) ++
  ((((upto s.recs.length).filter fun k => match s.recs[k]? with
    | some r => (s.slotOfNode r.dies r.node).isSome || (Tbl.get {} s.node (r.dies * 256 + r.node)).def'.isSome
    | none => false).take 1).map fun k => Move.event (.recAccept k))

/-- The events of threads (R110, R115, R117, R193, R232). -/
def State.threadMoves (s : State) : List Move :=
  s.thr.flatMap fun x =>
    let t := x.2
    (if t.st == .entering then [Move.event (.handlerEnter x.1)] else []) ++
    (if t.haltDue then [Move.event (.haltTake x.1)] else []) ++
    (if t.preempt.isSome then [Move.event (.preemptTake x.1)] else []) ++
    (match t.wait with | .sleep _ _ => [Move.event (.sleepWake x.1)] | _ => []) ++
    (match (upto t.pend.length).find? fun k => ((t.pend[k]?).map (·.src)) == some .here with
      | some k => [Move.event (.memoryReturn x.1 k)]
      | none => [])

/-- The events of the cores, their matrix units and BTUs, and of the core clusters (R101, R279, R288, R295, R305, R336). -/
def State.coreMoves (s : State) : List Move :=
  let live := s.blk.filter fun x => x.2.live
  ((live.map (·.2.core)).eraseDups.map Move.core) ++
  (s.core.flatMap fun x =>
    (if x.2.muOut.isEmpty then [] else [Move.event (.mmaComplete x.1)]) ++
    (if x.2.mu.isEmpty && (s.heldRounds x.1).isEmpty then [] else [Move.event (.matrixUnitStart x.1)]) ++
    (upto 4).flatMap fun ch => match (x.2.chan ch).xs with
      | y :: _ => if (x.2.chan ch).faulted then [] else
        (match (upto y.tmpl.count).find? fun n => !y.done.contains n with
          | some n => [Move.event (.btuElement x.1 ch n)]
          | none => [])
      | [] => []) ++
  (live.map fun x => Move.event (.blockRetire x.1)) ++
  (s.ccl.flatMap fun x => if x.2.waking then [Move.event (.clusterWakeDone x.1)] else if x.2.awake then [Move.event (.clusterGate x.1)] else [])

/-- The events of the Truss engines and their slots (R369, R376, R386, R387). -/
def State.trussMoves (s : State) : List Move :=
  let on := s.slot.filter fun x => x.2.st == 3 || x.2.st == 4 || x.2.st == 5
  ((on.map (·.2.eng)).eraseDups.flatMap fun e => [Move.event (.scheduleStart e), .engine e]) ++
  on.flatMap fun x =>
    if x.2.st = 5 then [Move.event (.trussWake x.1), .event (.scheduleWatchdog x.1)]
    else match x.2.wait with | .fin _ => [Move.event (.scheduleDone x.1)] | _ => []

/-- The events of the fabric's own timers (R356, R358). -/
def State.fabricMoves (s : State) : List Move :=
  ((s.fab.cust.filter fun c => decide (c.at' + s.pkg.ctmo * 1000 ≤ s.time) && (c.out || !s.portUp c.port)).map fun c => Move.event (.custodyTimeout c.pk.tag)) ++
  (s.fab.out.filter fun r => decide (r.sentAt + s.pkg.dline * 1000 ≤ s.time)).map fun r => Move.event (.sourceDeadline r.pk.tag)

/-- The ballast sources in the order in which the tokens of a tick are offered to them (R334): hints, scrub, and self-test, one step for each core of
the awake clusters; no core is found to fail by the model's own choice (log 14). -/
def State.ballastMoves (s : State) : List Move :=
  [0, 1, 2, 3].map (fun d => Move.event (.ballastHintFetch d)) ++ [0, 1, 2, 3].map (fun d => Move.event (.ballastScrubLine d)) ++
    (s.ccl.filter fun x => x.2.awake).flatMap fun x => ((upto 320).filter fun c => coreCcl c == x.1 && s.idleCore c).map fun c => Move.event (.selfTestStep c true)

/-- A source that has begun a line begins the next one, as long as the tokens offered to it cover it (R334). -/
def State.drawOn (s : State) : Instr → State
  | .ballastHintFetch d =>
    if (s.di d).hints.isEmpty || decide (s.pow.offered < (s.hintPrice : Nat)) then s
    else { s with agenda := .event (.ballastHintFetch d) :: s.agenda }
  | .ballastScrubLine d =>
    if s.scrubDue d && decide (0 < s.scrubPrice) then { s with agenda := .event (.ballastScrubLine d) :: s.agenda } else s
  | _ => s

/-- The events of power and clocks (R327, R329, R331, R334, R341, R418); the unmetered draw of an interval is a physical quantity (log 14). -/
def State.powerMoves (s : State) : List Move :=
  (if s.time % 64 = 0 then Move.event .bucketTick :: s.ballastMoves else []) ++
  (if s.time % 50000 = 0 then [Move.event (.sensorSample s.mg.sense)] else []) ++
  (if s.pow.k < s.time / 1000 then [Move.event (.governorInterval s.free.1.toNat)] else []) ++
  (if s.pow.tstep = s.pow.tgtStep then [] else [Move.event .thermalStepMove]) ++
  (([0, 1, 2, 3].filter fun d => (s.di d).relock).map fun d => Move.event (.clockRelockDone d))

/-- A round: what each agent may do now, and a nanosecond. -/
def State.round (s : State) : List Move :=
  s.powerMoves ++ s.queueMoves ++ s.ctxMoves ++ s.coreMoves ++ s.threadMoves ++ s.trussMoves ++ s.fabricMoves ++ [.elapse 1]

/-- The state before a round; the free values that its events take are spent. -/
def State.newRound (s : State) : State := { s with fresh := s.fresh + 8192, agenda := s.round }

/-! ### The next move -/

/-- The instruction is a step of the device, with no word or packet of its own. -/
def isEvent : Instr → Bool
  | .nopPacket .. | .launch .. | .waitPacket .. | .signal .. | .copyPacket .. | .loadsched .. | .runsched .. | .depend .. | .stepmark ..
  | .publish .. | .collect .. => false
  | i => i.core.isNone && i.truss.isNone

/-- What may happen while the package does not run its firmware (R407, R410, R419): power comes and goes, SD0 is lost, the 48 V stage watches
the sideband, and, in recovery, an image is pushed or the device is reset. -/
def mayHappen (b : Boot) : Instr → Bool
  | .powerOn | .powerLoss | .sd0Loss | .sidebandSilence => true
  | .recoveryImagePush _ | .resetDevice _ => b == .recovery
  | _ => false

/-- A slot of the core waits for a Migrating page, in the order of arrival there (R264). -/
def State.awaitsPage (s : State) (c : Nat) : Bool := s.held.any fun x => x.2.waits.contains (.core c)

/-- A group runs the word at its slot. -/
def State.slotMove (s : State) (c : Nat) (g : Group) : Next :=
  match (s.modCo c fun x => { x with grp := some g, last := some g }).slotFetch c g with
  | .ok (i, s) => .run i s
  | .error s => .done s

/-- A core's move (R103, R106): the word at the slot of its group, or the issue of a clause.  A group whose slot has stalled at the core's last move steps
aside for an issue, and is tried again when the core has no group (R102, R280; log 110).  A core makes no move while its die's clock relocks (R341). -/
def State.coreMove (s : State) (c : Nat) : Next :=
  let s := { s.undefer c with turn := c }
  if (s.di (coreDie c)).relock then .done s
  else match (s.co c).grp, (s.co c).parked with
  | none, [] => .run (.clauseIssue c) (s.modCo c fun x => { x with last := none })
  | none, g :: gs => (s.modCo c fun x => { x with parked := gs }).slotMove c g
  | some g, _ =>
    if (s.co c).last = some g ∧ !s.awaitsPage c then
      .run (.clauseIssue c) (s.modCo c fun x => { x with grp := none, parked := x.parked ++ [g], last := none })
    else s.slotMove c g

/-- A CP thread's move (R49, R55): the watch of a blocked one, or the packet at the read index. -/
def State.cpMove (s : State) (q : Nat) : Next :=
  if (s.qv q).qst = 3 then .run (.watchWake q) s
  else match s.fetchPacket q with
    | .ok i => .run i s
    | .error s => .done s

/-- An engine's move (R369, R375): the word at the PC of its slot; past the last word the slot faults. -/
def State.engineMove (s : State) (e : Nat) : Next :=
  let s := { s with eturn := e }
  match s.slotOn e with
  | none => .done s
  | some n => match ((s.sl n).words[(s.sl n).pc]?).bind decodeTruss with
    | some i => .run i s
    | none => .done (s.tFault n 1 0 0 false)

/-- A round follows once no other passing of time is due. -/
def State.afterTime (s : State) : State :=
  if s.agenda.any fun m => match m with | .elapse _ => true | _ => false then s
  else { s with fresh := s.fresh + 8192, agenda := s.agenda ++ s.round }

/-- The 48 V stage has seen a silent sideband for 10 ms, and has not asserted the fault pin (R419). -/
def Mg.faultDue (m : Mg) (now : Nat) : Bool := !m.fault && m.silent.any fun t => decide (t + 10000000 ≤ now)

/-- The move at the head of the agenda; with none, a new round, power-on (log 2), or what the 48 V stage sees.  Only a running device's agents move. -/
def State.nextMove (s : State) : Next :=
  match s.agenda with
  | [] =>
    if s.mg.boot = .running then .done s.newRound
    else if s.mg.boot = .off ∧ s.mg.thermtrip = false then .run .powerOn s
    else if s.mg.faultDue s.time then .run .sidebandSilence s
    else .done { s with time := s.time + 1 }
  | m :: rest =>
    let s := { s with agenda := rest }
    if s.mg.boot = .running then
      match m with
      | .event i => if isEvent i then .run i (s.drawOn i) else .done s
      | .core c => s.coreMove c
      | .cp q => s.cpMove q
      | .engine e => s.engineMove e
      | .elapse ns => .done (s.elapse ns).afterTime
      | .regError c b g p r => .done (s.regError c b g p r)
      | .memError soft k => .done (s.memError soft k)
      | .tagError l x => .done (s.tagError l x)
      | .strap b => .done { s with mg := { s.mg with strap := b } }
      | .sense x => .done { s with mg := { s.mg with sense := x } }
      | .stack i x => .done (s.placeStack i x)
      | .bootCfg c => .done { s with mg := { s.mg with cfg := some c } }
      | .raiseSvn => .done { s with mg := { s.mg with minSvn := max s.mg.minSvn s.mg.svn } }
      | .linkReplay p seq => .done (s.linkReplay p seq)
      | .memberEntry r g a => .done { s with pow := { s.pow with members := Tbl.set (2 ^ 20, 0) s.pow.members r (g % 2 ^ 20, a) } }
      | .routeEntry k e => .done { s with fab := { s.fab with route := Tbl.set (-1) s.fab.route k e } }
      | .put .. | .post .. | .deliver .. | .signals | .sends _ | .ingress .. | .redirect _ => .done (s.lateWrite m)
      | .incEntry k i => .done { s with fab := { s.fab with inc := Tbl.set 0 s.fab.inc k (i % 2 ^ 8) } }
    else
      match m with
      | .event i => if mayHappen s.mg.boot i then .run i s else .done s
      | .elapse ns => .done { s with time := s.time + ns }
      | .strap b => .done { s with mg := { s.mg with strap := b } }
      | .sense x => .done { s with mg := { s.mg with sense := x } }
      | .stack i x => .done (s.placeStack i x)
      | .bootCfg c => .done { s with mg := { s.mg with cfg := some c } }
      | _ => .done s

/-! ### Placing a core word (log 3) -/

/-- The header of a clause of one word, in the first class that admits it; the word may be a transfer, and a counting word finds f0 and f1
selected. -/
def placeHdr (op : Nat) : DWord :=
  let cls := ((upto 5).find? fun k => (opSet op).admitted k).getD 0
  .ofNat 64 (10 * 2 ^ 60 + cls * 2 ^ 56 + 2 ^ 39 + 2 ^ 34 + 2 ^ 30 + (opTransfer op).toNat * 2 ^ 26)

/-- The physical address and the virtual address of the clause that is placed. -/
def placePa : Nat := 2 ^ 24
/-- The virtual address. -/
def placeVa : Nat := 2 ^ 16

/-- A core word stored in slot 1 of a clause whose group stands at that slot on core 0: one thread of a one-thread block, of a Running context
with one executable page, at level F, and the core's turn. -/
def State.placeWord (s : State) (nbits w : Nat) : State :=
  let x : DWord := .ofNat 64 (w % 2 ^ nbits)
  let h := placeHdr (wordOp x)
  let b : Nat := 1
  let tid := 1024 * b
  let pte : DWord := .ofNat 64 (1 + 2 + 2 ^ 5 + 2 ^ 6 + 2 ^ 7 + placePa)
  let t : State := { s with
    mem := Memory.put s.mem placePa (natLe 8 h.toNat ++ natLe 8 x.toNat)
    tlb := { loc := 0, asid := 0, va := placeVa, pte } :: s.tlb
    held := Tbl.set {} s.held (heldKey 0 placeVa) {}
    mg := { s.mg with boot := .running }
    turn := 0
    agenda := [.core 0] }
  ((((t.modCx 0 fun c => { c with state := 4, asid := 0, dies := 15 }).setGr b
      { live := true, cid := 0, regs := 240, entry := placeVa }).setBk b { live := true, core := 0, gid := b, peers := [b], order := 1 }).setTh tid
      { pc := mkPc (placeVa + 8) 1, lvl := .f, st := .ready, regs := List.replicate 240 0 }).modCo 0 fun c =>
    { c with grp := some { addr := placeVa, hdr := h, slot := 1, members := [tid] } }

end Sys2Proof.Machine
end

