-- ==== Sys2Proof/Machine/Step.lean ====
section
/-!
DEFINITION. One step of the package: the move at the head of the agenda (log 2).
-/
namespace Sys2Proof.Machine

/-- One step: the move that comes next, as `State.move` gives it, runs its instruction, or the state it left by itself. -/
def step (s : State) : Host.Outcome State Fault Refusal :=
  match s.nextMove with
  | .run i t => exec i t
  | .done t => .next t

/-- A state with an instruction stored where `step` fetches its next one (log 3). -/
def State.withFetchWord (s : State) (nbits w : Nat) : State := s.placeWord nbits w

end Sys2Proof.Machine
end

