-- ==== Sys2Proof/Safety.lean ====
section
/-!
DEFINITION. The terms in which claims about the machine are stated: when a core word passes its checks, what a slot leaves alone, and what
a register, a memory byte and an outcome hold.
-/
namespace Sys2Proof.Machine

/-- An outcome is a next state of which `p` holds. -/
def Leads (o : Host.Outcome State Fault Refusal) (p : State → Prop) : Prop := ∃ t, o = .next t ∧ p t

/-! ### When a core word issues -/

/-- A core word stands at a slot of the group in progress on the core whose turn it is, of which no transfer waits to start (R280). -/
abbrev AtSlot (i : Instr) (s : State) (g : Group) (op : Nat) (b : Body) : Prop := s.cur = some g ∧ i.core = some (op, b) ∧ g.waitX = []

/-- A core word at its slot passes every check of R92; no flag that it counts stands at 63 (R79). -/
abbrev Issues (i : Instr) (s : State) (g : Group) (op : Nat) (b : Body) : Prop :=
  AtSlot i s g op b ∧ slotCauses (s.env g op b) = [] ∧ (s.env g op b).flagFull = false

/-- The members of a group whose guard is true (R85). -/
abbrev Acting (s : State) (g : Group) (b : Body) : List Nat := g.members.filter fun t => (s.th t).guardOn b.guard

/-- A core word issues for a group of one resident thread whose guard is true, in a gang without correctable register errors, while no line of memory has a
tag that an error has changed (what a slot does with either is a statement of its own: R118, R416). -/
abbrev Solo (i : Instr) (s : State) (g : Group) (op : Nat) (b : Body) (tid : Nat) : Prop :=
  Issues i s g op b ∧ g.members = [tid] ∧ (s.th tid).guardOn b.guard = true ∧ s.resident tid = true ∧
  (s.gg (tidGk tid)).soft = [] ∧ s.tags = []

/-! ### What a slot leaves alone -/

/-- The parts of a state that only threads, gangs, cores and the management controller's records may differ in. -/
structure SlotOnly (s t : State) : Prop where
  same : t = { s with thr := t.thr, gang := t.gang, core := t.core, mg := t.mg }

/-- A thread without what the issue of a slot itself moves: PC, state, latches, and what the halt of the debugger's step ends: the step, and a halt
posted meanwhile (R390). -/
def Thr.still (t : Thr) : Thr :=
  { t with
    pc := 0, st := .ready, latches := [], wait := .none, token := none, deferred := false, stepping := false
    stepDue := !t.stepping && t.stepDue, halt := if t.stepping then none else t.halt }

/-- A thread without that and without its lane and trap registers. -/
def Thr.bare (t : Thr) : Thr := { t.still with regs := [], kregs := [] }

/-- A gang without its marks of register words in error (R118). -/
def Gang.unmarked (g : Gang) : Gang := { g with poison := [], latent := [], soft := [] }

/-- A core without its group. -/
def Core.ungrouped (c : Core) : Core := { c with grp := none }

/-- The management controller without its logs of errors and of debug events. -/
def Mg.unlogged (m : Mg) : Mg := { m with ras := [], rasOver := 0, dbg := [] }

/-- What every slot of a group leaves alone, but for the threads' registers, flags and special state: other threads, the gangs' joins, codebooks
and counts, every other core, and all that `SlotOnly` names. -/
structure Slotted (s t : State) (g : Group) : Prop where
  only : SlotOnly s t
  others : ∀ m, m ∉ g.members → t.th m = s.th m
  gangs : ∀ k, (t.gg k).unmarked = (s.gg k).unmarked
  cores : ∀ c, (t.co c).ungrouped = (s.co c).ungrouped ∧ (c ≠ s.turn → t.co c = s.co c)
  mg : t.mg.unlogged = s.mg.unlogged

/-- The members of a group stand after its slot, and the group goes on with the next one, or ends after its last (R106), but for threads that the
debugger lets run one slot. -/
def Advances (s t : State) (g : Group) : Prop :=
  (∀ m ∈ g.members, s.resident m = true → (t.th m).pc = g.nextPc) ∧
  (g.members ≠ [] → (∀ m ∈ g.members, (s.th m).stepping = false) →
    t.cur = if g.last then none else some { g with slot := g.slot + 1, replays := 0, waitX := [] })

/-! ### What a destination holds -/

/-- `D` holds these words (R83, R84); `vz` holds nothing. -/
def Thr.gets (t : Thr) (d : Opnd) (ws : List Word) : Prop :=
  match d with
  | .reg r => ∀ k, k < ws.length → t.reg (r.val + k) = ws.getD k 0
  | .kreg k => t.kregs.getD k.val 0 = ws.headD 0
  | _ => True

/-- `D` holds a number in one register, or in a pair of which the first is the low half; `vz` holds nothing (R83, R84). -/
def Thr.has (t : Thr) (d : Opnd) (wide : Bool) (x : Nat) : Prop :=
  match d with
  | .reg r => (if wide then (t.reg r.val).toNat + 2 ^ 32 * (t.reg (r.val + 1)).toNat else (t.reg r.val).toNat) = x
  | .kreg k => (t.kregs.getD k.val 0).toNat = x
  | _ => True

/-- A register is one of the `n` that a destination names. -/
def covers (d : Opnd) (n r : Nat) : Bool :=
  match d with
  | .reg q => decide (q.val ≤ r) && decide (r < q.val + n)
  | _ => false

/-- The trap register that a destination names. -/
def namesKreg (d : Opnd) (k : Nat) : Bool :=
  match d with
  | .kreg q => q.val == k
  | _ => false

/-- Every register but the `n` of a destination keeps its value (R83: `vz` discards). -/
def Thr.keepsBut (u t : Thr) (d : Opnd) (n : Nat) : Prop :=
  (∀ r, covers d n r = false → u.reg r = t.reg r) ∧ (∀ k, namesKreg d k = false → u.kregs.getD k 0 = t.kregs.getD k 0)

/-- Every lane and trap register keeps its value. -/
def Thr.keepsRegs (u t : Thr) : Prop := u.regs = t.regs ∧ u.kregs = t.kregs

/-! ### Memory -/

/-- Every byte of memory reads as before. -/
def MemSame (s t : State) : Prop := ∀ a, t.byte a = s.byte a

/-- Every byte outside `n` bytes at a location reads as before. -/
def MemBut (s t : State) (loc n : Nat) : Prop := ∀ a, ¬(loc ≤ a ∧ a < loc + n) → t.byte a = s.byte a

/-- The bytes at a location read as these. -/
def Holds (t : State) (loc : Nat) (bs : List Byte) : Prop := ∀ k, k < bs.length → t.byte (loc + k) = bs.getD k 0

/-- What a slot that reaches memory may change of a state: memory, threads, gangs, cores, the logs, the TLBs, watches and reservations that a
write meets, and the free values spent. -/
structure MemOnly (s t : State) : Prop where
  same : t = { s with mem := t.mem, thr := t.thr, gang := t.gang, core := t.core, mg := t.mg, tlb := t.tlb, watch := t.watch, hres := t.hres
                      fresh := t.fresh }

/-- A thread without its registers, flags and pending results and errors. -/
def Thr.shell (t : Thr) : Thr := { t.bare with flags := [], pend := [], errs := [] }

/-- No trace buffer: no sample and no edge record is written (R394, R402). -/
abbrev Untraced (s : State) (tid : Nat) : Prop := (s.cx (s.cidOf tid)).tracebase = 0

/-- What the word of one thread leaves alone: other threads, the gangs' joins, codebooks and counts, the cores but for a group, and of its own
thread the level, the trap state and the special state. -/
structure Alone (s t : State) (tid : Nat) : Prop where
  others : ∀ m, m ≠ tid → t.th m = s.th m
  shell : (t.th tid).shell = (s.th tid).shell
  gangs : ∀ k, (t.gg k).unmarked = (s.gg k).unmarked
  cores : ∀ c, (t.co c).ungrouped = (s.co c).ungrouped
  mg : t.mg.unlogged = s.mg.unlogged

/-- Every flag counts as before, and no result or error has come or gone. -/
def Thr.quiet (u t : Thr) : Prop := (∀ k, u.flag k = t.flag k) ∧ u.pend = t.pend ∧ u.errs = t.errs

/-- A flag counts one more, and one more result is pending (R79): this one, in its place in the order of issue. -/
def Thr.awaits (u t : Thr) (k : Nat) (p : Pend) : Prop :=
  u.flag k = t.flag k + 1 ∧ (∀ j, j ≠ k → u.flag j = t.flag j) ∧ u.errs = t.errs ∧ ∃ q, u.pend = t.pend ++ [{ p with seq := q }]

/-- An access of a thread passes the checks of R228 and reaches a place. -/
abbrev Reaches (s : State) (tid sp kind w : Nat) (rd wr : Bool) (ea : Nat) (pc : DWord) (p : Place) : Prop :=
  (s.acs tid sp kind w rd wr ea pc).1 = .at p

/-- The word of one thread is done: the thread stands after the slot, and all but its own effect is left alone. -/
def Went (s t : State) (g : Group) (tid : Nat) : Prop := Alone s t tid ∧ (t.th tid).pc = g.nextPc

/-- A pending result that is a deferred error of a cause at an address (R229). -/
def owes (k code va : Nat) (wr : Bool) (pc : DWord) : Pend :=
  { flag := k, dst := .vz, vals := [], src := .here, err := some { code, tval := .ofNat 64 va, seq := 0, va, wr, pc } }

/-- What an atomic operation stores (R233), by the old value and the operand, in integers and bits; the floating forms are exact sums and
selections rounded once. -/
def atomSpec (f : Mem) (old x sw new : Nat) : Prop :=
  let ty := f.aty
  let v (n : Nat) : Int := if ty.signed then sextNat ty.bits n else (n : Int)
  match f.aop with
  | 0 => ty.floating = false → (new : Int) = (v old + v x) % (2 : Int) ^ ty.bits
  | 1 => ty.floating = false → (new : Int) = min (v old) (v x) % (2 : Int) ^ ty.bits
  | 2 => ty.floating = false → (new : Int) = max (v old) (v x) % (2 : Int) ^ ty.bits
  | 3 => ∀ k, new.testBit k = (old.testBit k && x.testBit k)
  | 4 => ∀ k, new.testBit k = (old.testBit k || x.testBit k)
  | 5 => ∀ k, new.testBit k = (old.testBit k != x.testBit k)
  | 6 => new = x
  | _ => new = if old = x then sw else old

/-- A request of a thread to another device is outstanding (R353, R357). -/
def Asked (t : State) (tid gdn kind opx atype pa tag : Nat) (data : List Byte) : Prop :=
  ∃ r ∈ t.fab.out, r.owner = .thread tid ∧ r.pk.tag = tag ∧ r.pk.dgdn = gdn ∧ r.pk.kind = kind ∧ r.pk.opx = opx ∧ r.pk.atype = atype ∧
    r.pk.pa = pa ∧ r.pk.data = data

end Sys2Proof.Machine
end

