-- ==== Sys2Proof/Safety/Integer.lean ====
section
/-!
DEFINITION. What each integer, logic and address word leaves in its destination (R137 to R157), in integers and single bits.
-/
namespace Sys2Proof.Machine

/-- The bits of an integer modulo `2^W`, for a type of width `W` (R137). -/
def residue (t : Ty) (x : Int) : Nat := (x % (2 : Int) ^ opW t).toNat

/-- An integer, or with saturation the nearest one of the type (R141). -/
def fitted (t : Ty) (sat : Bool) (x : Int) : Int :=
  if sat then
    if t.signed then max (-(2 : Int) ^ (opW t - 1)) (min ((2 : Int) ^ (opW t - 1) - 1) x)
    else max 0 (min ((2 : Int) ^ opW t - 1) x)
  else x

/-- A number below `2^n` has these bits. -/
def BitsAre (n x : Nat) (p : Nat → Bool) : Prop := x < 2 ^ n ∧ ∀ k, k < n → x.testBit k = p k

/-- The destination holds some number with a property. -/
def Thr.hasSome (t : Thr) (d : Opnd) (wide : Bool) (p : Nat → Prop) : Prop := ∃ x, t.has d wide x ∧ p x

/-- The sign-extended immediate of an I24 word, in bits of the type's width (R80, R157). -/
def immBits (t : Ty) (imm : BitVec 24) : Nat := residue t imm.toInt

/-- A condition of `ICMP` by its MOD code (R146). -/
def compares (cc : Nat) (a b : Int) : Prop :=
  (cc = 0 ∧ a = b) ∨ (cc = 1 ∧ a ≠ b) ∨ (cc = 2 ∧ a < b) ∨ (cc = 3 ∧ a ≤ b) ∨ (cc = 4 ∧ b < a) ∨ (cc = 5 ∧ b ≤ a)

/-- The destination is 1 where a condition holds, else 0. -/
def Thr.tells (u : Thr) (d : Opnd) (p : Prop) : Prop := (p → u.has d false 1) ∧ (¬p → u.has d false 0)

/-- What a word on two operands' bits leaves, bit by bit (R148). -/
def bitwise (f : V3) (t u : Thr) (op : Bool → Bool → Bool) : Prop :=
  u.hasSome f.d f.t.wide fun x => BitsAre (opW f.t) x fun k => op ((t.nat f.t f.a).testBit k) ((t.nat f.t f.b).testBit k)

/-- What a word on an operand's bits and an immediate leaves. -/
def bitwiseImm (f : I24) (t u : Thr) (op : Bool → Bool → Bool) : Prop :=
  u.hasSome f.d f.t.wide fun x => BitsAre (opW f.t) x fun k => op ((t.nat f.t f.a).testBit k) ((immBits f.t f.imm).testBit k)

/-- Bits of an operand of width `w` shifted left, 0 coming in (R149). -/
def leftBits (w a n k : Nat) : Bool := decide (n ≤ k) && decide (k < w) && a.testBit (k - n)
/-- Bits of an operand shifted right, `fill` coming in (R149). -/
def rightBits (w a n : Nat) (fill : Bool) (k : Nat) : Bool := if k + n < w then a.testBit (k + n) else fill

/-- The length of the field of `BFX` and `BFI` (R151). -/
def fieldLen (w ctl : Nat) : Nat := min (ctl / 2 ^ 8 % 2 ^ 8) w

/-- What an integer word (opcodes 0x00 to 0x2C) leaves in its destination: a thread before and after. -/
def intSpec (i : Instr) (t u : Thr) : Prop :=
  match i with
  | .iadd f => u.has f.d f.t.wide (residue f.t (fitted f.t (f.mod.getLsbD 0) (t.int f.t f.a + t.int f.t f.b)))
  | .isub f => u.has f.d f.t.wide (residue f.t (fitted f.t (f.mod.getLsbD 0) (t.int f.t f.a - t.int f.t f.b)))
  | .iaddc f =>
    let x := (t.val f.a).toNat + (t.val f.b).toNat + (t.val f.c).toNat % 2
    u.has f.d true (x % 2 ^ 32 + 2 ^ 32 * (x / 2 ^ 32))
  | .isubb f =>
    let x : Int := (t.val f.a).toNat - (t.val f.b).toNat - ((t.val f.c).toNat % 2 : Nat)
    u.has f.d true ((x % 2 ^ 32).toNat + 2 ^ 32 * (if x < 0 then 1 else 0))
  | .ineg f => u.has f.d f.t.wide (residue f.t (fitted f.t (f.mod.getLsbD 0) (-(t.int f.t f.a))))
  | .iabs f => u.has f.d f.t.wide (residue f.t (fitted f.t (f.mod.getLsbD 0) ((t.int f.t f.a).natAbs : Nat)))
  | .imul f => u.has f.d f.t.wide (residue f.t (t.int f.t f.a * t.int f.t f.b))
  | .imulh f => u.has f.d f.t.wide (residue f.t (t.int f.t f.a * t.int f.t f.b / (2 : Int) ^ opW f.t))
  | .imad f => u.has f.d f.t.wide (residue f.t (t.int f.t f.a * t.int f.t f.b + t.int f.t f.c))
  | .imadw f => u.has f.d true (((t.int f.t f.a * t.int f.t f.b + (t.val64 f.c).toNat) % (2 : Int) ^ 64).toNat)
  | .idiv f =>
    let a := t.int f.t f.a
    let b := t.int f.t f.b
    (b = 0 → u.has f.d f.t.wide (2 ^ opW f.t - 1)) ∧
    (f.t.signed = true → a = -(2 : Int) ^ (opW f.t - 1) → b = -1 → u.has f.d f.t.wide (2 ^ (opW f.t - 1))) ∧
    (b ≠ 0 → ¬(f.t.signed = true ∧ a = -(2 : Int) ^ (opW f.t - 1) ∧ b = -1) → u.has f.d f.t.wide (residue f.t (a.tdiv b)))
  | .irem f =>
    let a := t.int f.t f.a
    let b := t.int f.t f.b
    (b = 0 → u.has f.d f.t.wide (residue f.t a)) ∧
    (f.t.signed = true → a = -(2 : Int) ^ (opW f.t - 1) → b = -1 → u.has f.d f.t.wide 0) ∧
    (b ≠ 0 → ¬(f.t.signed = true ∧ a = -(2 : Int) ^ (opW f.t - 1) ∧ b = -1) → u.has f.d f.t.wide (residue f.t (a.tmod b)))
  | .imin f => u.has f.d f.t.wide (residue f.t (min (t.int f.t f.a) (t.int f.t f.b)))
  | .imax f => u.has f.d f.t.wide (residue f.t (max (t.int f.t f.a) (t.int f.t f.b)))
  | .icmp f => u.tells f.d (compares f.mod.toNat (t.int f.t f.a) (t.int f.t f.b))
  | .isel f => u.has f.d f.t.wide (if (t.val f.c).toNat % 2 = 1 then t.nat f.t f.a else t.nat f.t f.b)
  | .andL f => bitwise f t u fun a b => a && b
  | .orL f => bitwise f t u fun a b => a || b
  | .xorL f => bitwise f t u fun a b => a != b
  | .andn f => bitwise f t u fun a b => a && !b
  | .orn f => bitwise f t u fun a b => a || !b
  | .shl f => u.hasSome f.d f.t.wide fun x => BitsAre (opW f.t) x (leftBits (opW f.t) (t.nat f.t f.a) (t.val f.b).toNat)
  | .shr f => u.hasSome f.d f.t.wide fun x => BitsAre (opW f.t) x (rightBits (opW f.t) (t.nat f.t f.a) (t.val f.b).toNat false)
  | .sar f => u.hasSome f.d f.t.wide fun x => BitsAre (opW f.t) x
      (rightBits (opW f.t) (t.nat f.t f.a) (t.val f.b).toNat ((t.nat f.t f.a).testBit (opW f.t - 1)))
  | .rotl f => u.hasSome f.d f.t.wide fun x => x < 2 ^ opW f.t ∧
      ∀ k, k < opW f.t → x.testBit ((k + (t.val f.b).toNat) % opW f.t) = (t.nat f.t f.a).testBit k
  | .funl f => u.hasSome f.d false fun x => BitsAre 32 x
      (fun k => leftBits 64 ((t.val f.a).toNat * 2 ^ 32 + (t.val f.b).toNat) ((t.val f.c).toNat % 64) (k + 32))
  | .bfx f =>
    let ctl := (t.val f.b).toNat
    let n := fieldLen (opW f.t) ctl
    let src (k : Nat) : Bool := rightBits (opW f.t) (t.nat f.t f.a) (ctl % 2 ^ 8)
      (f.t.signed && (t.nat f.t f.a).testBit (opW f.t - 1)) k
    u.hasSome f.d f.t.wide fun x => BitsAre (opW f.t) x fun k =>
      if k < n then src k else f.t.signed && decide (0 < n) && src (n - 1)
  | .bfi f =>
    let ctl := (t.val f.c).toNat
    let p := ctl % 2 ^ 8
    u.hasSome f.d f.t.wide fun x => BitsAre (opW f.t) x fun k =>
      if p ≤ k ∧ k < p + fieldLen (opW f.t) ctl then (t.nat f.t f.b).testBit (k - p) else (t.nat f.t f.a).testBit k
  | .popc f => u.has f.d false ((List.range (opW f.t)).filter fun k => (t.nat f.t f.a).testBit k).length
  | .clz f => u.hasSome f.d false fun x => x ≤ opW f.t ∧
      (∀ k, k < x → (t.nat f.t f.a).testBit (opW f.t - 1 - k) = false) ∧
      (x < opW f.t → (t.nat f.t f.a).testBit (opW f.t - 1 - x) = true)
  | .ctz f => u.hasSome f.d false fun x => x ≤ opW f.t ∧
      (∀ k, k < x → (t.nat f.t f.a).testBit k = false) ∧ (x < opW f.t → (t.nat f.t f.a).testBit x = true)
  | .brev f => u.hasSome f.d f.t.wide fun x => BitsAre (opW f.t) x fun k => (t.nat f.t f.a).testBit (opW f.t - 1 - k)
  | .permb f => u.hasSome f.d false fun x => x < 2 ^ 32 ∧ ∀ i, i < 4 →
      let k := (t.val f.c).toNat / 2 ^ (8 * i) % 2 ^ 8
      let y := ((t.val f.a).toNat + 2 ^ 32 * (t.val f.b).toNat) / 2 ^ (8 * (k % 8)) % 2 ^ 8
      x / 2 ^ (8 * i) % 2 ^ 8 = if k.testBit 4 then 0 else if k.testBit 3 then 255 - y else y
  | .lea f => u.has f.d true (((t.val64 f.a).toNat + t.int f.t f.b * (2 : Int) ^ f.mod.toNat) % (2 : Int) ^ 64).toNat
  | .mov f => u.has f.d f.t.wide (t.nat f.t f.a)
  | .movi f => u.has f.d (f.t2 == 3) f.imm.toNat
  | .movh f => u.has f.d true ((t.val f.d).toNat + 2 ^ 32 * f.imm.toNat)
  | .iaddi f => u.has f.d f.t.wide (residue f.t (fitted f.t (f.mod == 1)
      (t.int f.t f.a + if f.t.signed then f.imm.toInt else (immBits f.t f.imm : Int))))
  | .icmpi f => u.tells f.d (compares (if f.mod = 3 then 5 else f.mod.toNat) (t.int f.t f.a)
      (if f.t.signed then f.imm.toInt else (immBits f.t f.imm : Int)))
  | .andi f => bitwiseImm f t u fun a b => a && b
  | .ori f => bitwiseImm f t u fun a b => a || b
  | .xori f => bitwiseImm f t u fun a b => a != b
  | .shli f => u.hasSome f.d f.t.wide fun x => BitsAre (opW f.t) x (leftBits (opW f.t) (t.nat f.t f.a) f.imm.toNat)
  | .shri f => u.hasSome f.d f.t.wide fun x => BitsAre (opW f.t) x (rightBits (opW f.t) (t.nat f.t f.a) f.imm.toNat false)
  | .sari f => u.hasSome f.d f.t.wide fun x => BitsAre (opW f.t) x
      (rightBits (opW f.t) (t.nat f.t f.a) f.imm.toNat ((t.nat f.t f.a).testBit (opW f.t - 1)))
  | _ => False

/-- The destination of a register word, and how many registers it spans (R84). -/
def resultOf (op : Nat) (b : Body) : Opnd × Nat :=
  match b.dests op with
  | (.span n _ _ _, d) :: _ => (d, n)
  | (.unused, _) :: _ => (.vz, 0)
  | (_, d) :: _ => (d, 1)
  | [] => (.vz, 0)

/-- The words that only compute: the integer, floating-point and lane opcodes (R89). -/
def computes (op : Nat) : Bool := decide (op < 0x5B) || (decide (0x80 ≤ op) && decide (op < 0x88))

end Sys2Proof.Machine
end

