-- ==== Sys2Proof/Safety/Floating.lean ====
section
/-!
DEFINITION. What each floating-point, conversion and lane word leaves in its destination (R158 to R187), element by element, in the exact
values of the operands and one rounding.
-/
namespace Sys2Proof.Machine

/-- Element `k` of the bits of a value of a type (R125). -/
def elemOf (t : Ty) (x k : Nat) : Nat := if t.packed then x / 2 ^ (16 * k) % 2 ^ 16 else x

/-- Each element of the destination stands in a relation to its place. -/
def Thr.eachElem (u : Thr) (t : Ty) (d : Opnd) (p : Nat → Nat → Prop) : Prop :=
  u.hasSome d t.wide fun x => ∀ k, k < (if t.packed then 2 else 1) → p k (elemOf t x k)

/-- Each element is an exact value of the elements of A, B and C, rounded once (R126). -/
def rounded (f : V3) (t u : Thr) (v : FV → FV → FV → FV) : Prop :=
  u.eachElem f.t f.d fun k x =>
    let a (o : Opnd) : FV := (ffmt f.t).val (elemOf f.t (t.nat f.t o) k)
    x = (ffmt f.t).ofFV (rmOf f.mod.toNat) false (v (a f.a) (a f.b) (a f.c))

/-- Each element is a function of the element of A, rounded to nearest (R171). -/
def nearest (f : V3) (t u : Thr) (v : FV → FV) : Prop :=
  u.eachElem f.t f.d fun k x => x = (ffmt f.t).ofFV .rne false (v ((ffmt f.t).val (elemOf f.t (t.nat f.t f.a) k)))

/-- The smaller or greater of two elements (R164): the only one that is no NaN, unless a NaN counts; the canonical NaN for no value. -/
def chosen (f : V3) (t u : Thr) (greater nanWins : Bool) : Prop :=
  u.eachElem f.t f.d fun k x =>
    let m := ffmt f.t
    let p := elemOf f.t (t.nat f.t f.a) k
    let q := elemOf f.t (t.nat f.t f.b) k
    let np := m.val p = .nan
    let nq := m.val q = .nan
    (np ∧ nq ∨ nanWins = true ∧ (np ∨ nq) → x = m.cnan) ∧
    (np ∧ ¬nq ∧ nanWins = false → x = q % 2 ^ m.bits) ∧ (nq ∧ ¬np ∧ nanWins = false → x = p % 2 ^ m.bits) ∧
    (¬np ∧ ¬nq → x = (if (m.val (if greater then p else q)).less (m.val (if greater then q else p)) then q else p) % 2 ^ m.bits)

/-- How two values stand to each other: 0 less, 1 equal, 2 greater, 3 unordered (R165). -/
def ordering (a b : FV) : Nat := if a = .nan ∨ b = .nan then 3 else (FV.cmp a b + 1).toNat

/-- The orderings for which each condition of `FCMP` holds, as bits (R165). -/
def condBits : List Nat := [0b0010, 0b1101, 0b0001, 0b0011, 0b0100, 0b0110, 0b1000, 0b0111, 0b1001, 0b1011, 0b1100, 0b1110, 0b1010, 0b0101]

/-- The one class bit of `FCLASS` from the fields of the bits (R119, R166). -/
def classBit (m : FFmt) (x : Nat) : Nat :=
  let neg := x.testBit (m.eb + m.fb)
  let e := x / 2 ^ m.fb % 2 ^ m.eb
  let n := x % 2 ^ m.fb
  let top := 2 ^ m.eb - 1
  if m.fn = true ∧ e = top ∧ n = 2 ^ m.fb - 1 then 9
  else if m.fn = false ∧ e = top then
    (if n = 0 then (if neg then 0 else 7) else if m.fb = 2 then 9 else if n.testBit (m.fb - 1) then 9 else 8)
  else if e = 0 then (if n = 0 then (if neg then 3 else 4) else if neg then 2 else 5)
  else if neg then 1 else 6

/-- What a floating-point or conversion word (opcodes 0x40 to 0x5A) leaves in its destination: a thread before and after, and the gang that
holds its codebook. -/
def floatSpec (i : Instr) (g : Gang) (t u : Thr) : Prop :=
  match i with
  | .fadd f => rounded f t u fun a b _ => addSum (rmOf f.mod.toNat) [a, b]
  | .fsub f => rounded f t u fun a b _ => addSum (rmOf f.mod.toNat) [a, b.neg]
  | .fmul f => rounded f t u fun a b _ => a.mul b
  | .ffma f => rounded f t u fun a b c => addSum (rmOf f.mod.toNat) [a.mul b, c]
  | .fmin f => chosen f t u false false
  | .fmax f => chosen f t u true false
  | .fminm f => chosen f t u false true
  | .fmaxm f => chosen f t u true true
  | .fcmp f => u.hasSome f.d false fun x =>
      x < (if f.t.packed then 4 else 2) ∧ ∀ k, k < (if f.t.packed then 2 else 1) →
        x.testBit k = (condBits.getD f.mod.toNat 0).testBit (ordering ((ffmt f.t).val (elemOf f.t (t.nat f.t f.a) k))
          ((ffmt f.t).val (elemOf f.t (t.nat f.t f.b) k)))
  | .fclass f => u.has f.d false (2 ^ classBit (ffmt f.t) (t.nat f.t f.a))
  | .frnd f => rounded f t u fun a _ _ => FV.rnd (rmOf f.mod.toNat) a
  | .fscale f => u.eachElem f.t f.d fun k x =>
      x = (ffmt f.t).ofFV (rmOf f.mod.toNat) false (match (ffmt f.t).val (elemOf f.t (t.nat f.t f.a) k) with
        | .fin neg m e => .fin neg m (e + (t.val f.b).toInt)
        | v => v)
  | .fexpx f => u.has f.d false (residue .s32 (match (ffmt f.t).val (t.nat f.t f.a) with
      | .nan => -(2 : Int) ^ 31 + 1
      | .inf _ => (2 : Int) ^ 31 - 1
      | .fin _ m e => if m = 0 then -(2 : Int) ^ 31 else e + (Nat.log2 m : Nat)))
  | .fdiv f => rounded f t u fun a b _ => a.div b
  | .fsqrt f => rounded f t u fun a _ _ => a.sqrt
  | .frcp f => rounded f t u fun a _ _ => a.rcp
  | .frsq f => rounded f t u fun a _ _ => a.rsq
  | .fexp2 f => nearest f t u FV.exp2
  | .flog2 f => nearest f t u FV.log2
  | .fsinp f => nearest f t u FV.sinp
  | .fcosp f => nearest f t u FV.cosp
  | .ftanh f => nearest f t u FV.tanh
  | .fdot2 f =>
    let m := ffmt f.t
    let p (i : Nat) : FV := (m.val ((t.val f.a).toNat / 2 ^ (16 * i) % 2 ^ 16)).mul (m.val ((t.val f.b).toNat / 2 ^ (16 * i) % 2 ^ 16))
    u.has f.d false ((ffmt .f32).ofFV (rmOf f.mod.toNat) false (exactSum false [(ffmt .f32).val (t.val f.c).toNat, p 0, p 1]))
  | .cvt f => u.gets f.d (outCvt f.t (cvtVal f.t f.ts (rmOf f.mod.toNat) (f.mod.getLsbD 3) (t.nat f.ts f.a)))
  | .cvtp f =>
    let c (x : Nat) : Nat := (cvtVal f.t f.ts (rmOf f.mod.toNat) (f.mod.getLsbD 3) x).toNat
    let a := t.nat f.ts f.a
    let b := t.nat f.ts f.b
    u.has f.d false (if f.t.packed then c a + 2 ^ 16 * c b
      else if f.ts.packed then c (a % 2 ^ 16) + 2 ^ 8 * c (a / 2 ^ 16) + 2 ^ 16 * c (b % 2 ^ 16) + 2 ^ 24 * c (b / 2 ^ 16)
      else c a + 2 ^ 8 * c b)
  | .cvtq f =>
    let a := t.nat f.ts f.a
    let c (x : Nat) : Nat := (cvtVal f.t f.ts .rne false x).toNat
    if f.ts.packed then u.gets f.d [.ofNat 32 (c (a % 2 ^ 16)), .ofNat 32 (c (a / 2 ^ 16))]
    else if f.t = .f32 then u.gets f.d ([0, 1, 2, 3].map fun k => .ofNat 32 (c (a / 2 ^ (8 * k) % 2 ^ 8)))
    else u.gets f.d ([0, 2].map fun k => .ofNat 32 (c (a / 2 ^ (8 * k) % 2 ^ 8) + 2 ^ 16 * c (a / 2 ^ (8 * k + 8) % 2 ^ 8)))
  | .cbx f => u.gets f.d ([0, 1, 2, 3].map fun k =>
      let x (j : Nat) : Half := g.entry f.slot.toNat ((t.val f.a).toNat / 2 ^ (4 * j) % 2 ^ 4)
      .ofNat 32 ((x (2 * k)).toNat + 2 ^ 16 * (x (2 * k + 1)).toNat))
  | _ => False

/-! ### Lane words -/

/-- The participants of a lane word (R179). -/
def Sharing (s : State) (ts : List Nat) : List Nat := ts.filter fun t => !(s.th t).helper

/-- A number is the mask of the lanes of the threads of a list that satisfy a test. -/
def IsMask (ts : List Nat) (p : Nat → Prop) (x : Nat) : Prop :=
  ∀ k, x.testBit k = true ↔ ∃ t ∈ ts, p t ∧ tidLane t = k

/-- A number is the least of a property, or `top` when it has none below. -/
def IsLeast (p : Nat → Prop) (top x : Nat) : Prop := (p x ∨ x = top) ∧ ∀ y, p y → x ≤ y

/-- What a word that reads another lane leaves (R179, R181, R182): the words of A of an active member on the source lane; with none there, the
fill, which is C, or the thread's own A. -/
def reads (f : V3) (s : State) (ts : List Nat) (m : Nat) (u : Thr) (own : Bool) (src : Option Nat) : Prop :=
  let n := if f.t.wide then 2 else 1
  (∀ k, src = some k → (∃ v ∈ ts, tidLane v = k) → ∃ v ∈ ts, tidLane v = k ∧ u.gets f.d ((s.th v).vals n f.a)) ∧
  ((∀ k, src = some k → ∀ v ∈ ts, tidLane v ≠ k) → u.gets f.d ((s.th m).vals n (if own then f.a else f.c)))

/-- The words that a reduction of some participants leaves (R185): sums, extremes and bitwise combinations of the values of A. -/
def reduces (f : V3) (s : State) (u : Thr) (ps : List Nat) : Prop :=
  let t := f.t
  let ns := ps.map fun p => (s.th p).nat t f.a
  let is := ps.map fun p => (s.th p).int t f.a
  let bits (init : Bool) (op : Bool → Bool → Bool) : Prop :=
    u.hasSome f.d t.wide fun x => BitsAre (opW t) x fun k => ns.foldl (fun b n => op b (n.testBit k)) init
  match f.mod.toNat % 8 with
  | 0 => if t.floating then ns ≠ [] → u.has f.d t.wide ((ffmt t).ofFV .rne false (exactSum false (ns.map (ffmt t).val)))
         else u.has f.d t.wide (residue t is.sum)
  | 1 => if t.floating then ns ≠ [] → (∀ n ∈ ns, (ffmt t).val n ≠ .nan) → u.hasSome f.d t.wide fun x =>
            (∃ n ∈ ns, x = n % 2 ^ (ffmt t).bits) ∧ ∀ n ∈ ns, ((ffmt t).val n).less ((ffmt t).val x) = false
         else u.has f.d t.wide (residue t (is.foldl min (if t.signed then (2 : Int) ^ (opW t - 1) - 1 else (2 : Int) ^ opW t - 1)))
  | 2 => if t.floating then ns ≠ [] → (∀ n ∈ ns, (ffmt t).val n ≠ .nan) → u.hasSome f.d t.wide fun x =>
            (∃ n ∈ ns, x = n % 2 ^ (ffmt t).bits) ∧ ∀ n ∈ ns, ((ffmt t).val x).less ((ffmt t).val n) = false
         else u.has f.d t.wide (residue t (is.foldl max (if t.signed then -(2 : Int) ^ (opW t - 1) else 0)))
  | 3 => bits true fun a b => a && b
  | 4 => bits false fun a b => a || b
  | _ => bits false fun a b => a != b

/-- What a lane word (opcodes 0x80 to 0x87) leaves in the destination of a thread: the state before, the active members, the group's members,
the thread and what it is after. -/
def laneSpec (i : Instr) (s : State) (ts ms : List Nat) (m : Nat) (u : Thr) : Prop :=
  let ps := Sharing s ts
  let l := tidLane m
  match i with
  | .shfl f => reads f s ts m u (f.mod.getLsbD 0) (shflLane ((s.th m).val f.b).toNat l)
  | .qswap f => reads f s ts m u false (some (l / 4 * 4 + (l % 4 ^^^ (f.mod.toNat + 1))))
  | .qbc f => reads f s ts m u false (some (l / 4 * 4 + f.mod.toNat))
  | .vote f =>
    let yes (t : Nat) : Prop := ((s.th t).val f.a).getLsbD 0 = true
    if f.mod = 0 then
      u.hasSome f.d false fun x => ps ≠ [] → ps.length ≤ 32 →
        (x.testBit 0 = true ↔ ∃ t ∈ ps, yes t) ∧ (x.testBit 1 = true ↔ ∀ t ∈ ps, yes t) ∧
        (x.testBit 2 = true ↔ ∀ t ∈ ps, ∀ v ∈ ps, (s.th t).val f.a = (s.th v).val f.a) ∧
        x / 2 ^ 3 % 2 ^ 6 = (ps.filter fun t => ((s.th t).val f.a).getLsbD 0).length ∧
        ((∃ t ∈ ps, yes t) → (∃ t ∈ ps, yes t ∧ tidLane t = x / 2 ^ 9 % 2 ^ 5) ∧ (∃ t ∈ ps, yes t ∧ tidLane t = x / 2 ^ 14 % 2 ^ 5) ∧
          ∀ t ∈ ps, yes t → x / 2 ^ 9 % 2 ^ 5 ≤ tidLane t ∧ tidLane t ≤ x / 2 ^ 14 % 2 ^ 5)
    else u.hasSome f.d false (IsMask ps yes)
  | .matchV f =>
    let v (t : Nat) : Nat := (s.th t).nat f.t f.a
    if (s.th m).helper then u.has f.d false 0
    else match f.mod.toNat with
      | 0 => u.hasSome f.d false (IsMask ps fun t => v t = v m)
      | 1 => u.hasSome f.d false (IsLeast (fun k => ∃ t ∈ ps, v t = v m ∧ tidLane t = k) 31)
      | 2 => ps.length ≤ 32 → u.has f.d false (ps.filter fun t => v t == v m && decide (tidLane t < l)).length
      | _ => ps.length ≤ 32 → u.has f.d false (ps.map v).eraseDups.length
  | .xred f => reduces f s u ps
  | .xscan f => reduces f s u (ps.filter fun p =>
      if f.mod.getLsbD 3 || (s.th m).helper then decide (tidLane p < l) else decide (tidLane p ≤ l))
  | .lmask f =>
    let lanes (p : Nat → Prop) (x : Nat) : Prop := x < 2 ^ 32 ∧ ∀ k, k < 32 → (x.testBit k = true ↔ p k)
    u.hasSome f.d false (match f.mod.toNat with
      | 0 => IsMask ts fun _ => True
      | 1 => IsMask ms fun _ => True
      | 2 => lanes fun k => s.liveTid (gkTid (tidGk m) k) = true
      | 3 => lanes fun k => k < l
      | 4 => lanes fun k => k ≤ l
      | 5 => lanes fun k => l < k
      | 6 => lanes fun k => l ≤ k
      | _ => IsMask ps fun _ => True)
  | _ => False

end Sys2Proof.Machine
end

