-- ==== Sys2Proof/Certificates/Slice0/Obligations.lean ====
section
/-!
DEFINITION. The statements about the machine that are to be proved, from the numbered rules of the spec.
-/
open Sys2Proof Sys2Proof.Machine

/-! ### Words that only compute -/

/-- R137 to R157: each integer, logic and address word completes, and the destination of every acting member holds what the rules give. -/
def Obligations.IntegerResults : Prop :=
  ∀ i s g op b, Issues i s g op b → op < 0x2D →
    Leads (exec i s) fun t => ∀ m ∈ Acting s g b, intSpec i (s.th m) (t.th m)

/-- R158 to R178: each floating-point and conversion word completes, and the destination of every acting member holds the value of the rules,
rounded once. (The functions of R171 are evaluated on 340 fraction bits before their one rounding: log 19; an infinity under `.sat` to a wider
format: log 20.) -/
def Obligations.FloatResults : Prop :=
  ∀ i s g op b, Issues i s g op b → 0x40 ≤ op → op < 0x5B →
    Leads (exec i s) fun t => ∀ m ∈ Acting s g b, floatSpec i (s.gg (tidGk m)) (s.th m) (t.th m)

/-- R179 to R187: each lane word completes, and the destination of every acting member holds what the rules give from the lanes of its group. -/
def Obligations.LaneResults : Prop :=
  ∀ i s g op b, Issues i s g op b → 0x80 ≤ op → op < 0x88 →
    Leads (exec i s) fun t => ∀ m ∈ Acting s g b, laneSpec i s (Acting s g b) g.members m (t.th m)

/-- The frame of the integer, floating-point, conversion and lane words: the slot advances; no register but the destination's changes, nor any flag,
special or trap register, nor any byte of memory.  R118: a correctable error in a register word that the slot reads is logged with core, lane pair
and register and nothing else comes of it, and an uncorrectable one in a word without an acting lane marks the word poisoned and is logged (where in
a log entry its place stands: log 92). -/
def Obligations.ComputeFrame : Prop :=
  (∀ i s g op b, Issues i s g op b → computes op = true →
    Leads (exec i s) fun t =>
      Slotted s t g ∧ Advances s t g ∧ MemSame s t ∧ (∀ m, (t.th m).bare = (s.th m).bare) ∧
      (∀ m, m ∉ Acting s g b → (t.th m).keepsRegs (s.th m)) ∧
      ∀ m ∈ Acting s g b, (t.th m).keepsBut (s.th m) (resultOf op b).1 (resultOf op b).2) ∧
  ∀ i s g op b m r k, Issues i s g op b → computes op = true → g.members = [m] → (s.env g op b).readRegs = [r] → 256 * (tidLane m / 2) + r = k →
    (k ∈ (s.gg (tidGk m)).soft → k ∉ (s.gg (tidGk m)).latent → Leads (exec i s) fun t =>
      t.mg = (s.ras 1 0 s.turn (tidLane m / 2 * 256 + r)).mg ∧ (t.gg (tidGk m)).poison = (s.gg (tidGk m)).poison) ∧
    (k ∈ (s.gg (tidGk m)).latent → Acting s g b = [] → Leads (exec i s) fun t =>
      t.mg = (s.ras 2 0 s.turn (tidLane m / 2 * 256 + r)).mg ∧ (t.gg (tidGk m)).poison = (s.gg (tidGk m)).poison ++ [k] ∧
      (t.gg (tidGk m)).latent = (s.gg (tidGk m)).latent.erase k)

/-- What a hold copies (R86): an operand as it was read, or the result in a register of the destination. -/
def heldValue (t u : Thr) (f : V3) (src : HoldSrc) (x : Word) : Prop :=
  match src with
  | .a => x = t.val f.a
  | .b => x = t.val f.b
  | .c => x = t.val f.c
  | .r => ∀ r, f.d = .reg r → x = u.reg r.val

/-- R86, R87: after a computing V3 word the latch that its hold names has the held value and validity 2, every other latch of the member has one
slot less, and at the end of the clause none is valid. (A slot that a guard turns off counts as a later slot: log 17.) -/
def Obligations.LatchHolds : Prop :=
  ∀ i s g op f m, Issues i s g op (.v3 f) → computes op = true → g.members.Nodup → m ∈ Acting s g (.v3 f) → s.resident m = true →
    Leads (exec i s) fun t =>
      (∀ k src, f.h = .keep k src →
        heldValue (s.th m) (t.th m) f src ((t.th m).latch k.val).val ∧ ((t.th m).latch k.val).valid = if g.last then 0 else 2) ∧
      ∀ k, (∀ q src, f.h = .keep q src → q.val ≠ k) →
        ((t.th m).latch k).val = ((s.th m).latch k).val ∧
        ((t.th m).latch k).valid = if g.last then 0 else ((s.th m).latch k).valid - 1

/-! ### Memory words -/

/-- R232, R229, R97: `LD` from memory counts its flag and leaves the loaded words pending, or the error of a poisoned sector; no register and no
byte changes. (Over spaces 1 and 2 the address is a sum modulo 2^32: log 65.) -/
def Obligations.Loads : Prop :=
  ∀ f s g op b tid k n, Solo (.ld f) s g op b tid → Untraced s tid → hdrFlag g.hdr f.fs = some k →
    Reaches s tid f.sp.toNat 1 (memW f) true false (memEa f (s.th tid) (memW f)) g.pc (.loc n) →
    Leads (exec (.ld f) s) fun t =>
      Went s t g tid ∧ MemOnly s t ∧ MemSame s t ∧ (t.th tid).keepsRegs (s.th tid) ∧
      (t.th tid).awaits (s.th tid) k
        (if s.poisoned n (memW f) then owes k 0x0C (memEa f (s.th tid) (memW f)) false g.pc
         else { flag := k, dst := f.d, vals := loadWords (memW f) f.sx (s.rd n (memW f)), src := .here })

/-- R232, R97: `ST` to memory stores the bytes of X, lowest first, at the place of its address, and changes nothing else; a helper's stores
nothing. (Over spaces 1 and 2 the address is a sum modulo 2^32: log 65.) -/
def Obligations.Stores : Prop :=
  ∀ f s g op b tid, Solo (.st f) s g op b tid → Untraced s tid →
    ((s.th tid).helper = false → ∀ n, Reaches s tid f.sp.toNat 1 (memW f) false true (memEa f (s.th tid) (memW f)) g.pc (.loc n) →
      s.inHst n (memW f) = false →
      Leads (exec (.st f) s) fun t =>
        Went s t g tid ∧ MemOnly s t ∧ Holds t n (natLe (memW f) ((s.th tid).data (memW f) f.x)) ∧ MemBut s t n (memW f) ∧
        (t.th tid).keepsRegs (s.th tid) ∧ (t.th tid).quiet (s.th tid)) ∧
    ((s.th tid).helper = true → Leads (exec (.st f) s) fun t =>
      Went s t g tid ∧ MemOnly s t ∧ MemSame s t ∧ (t.th tid).keepsRegs (s.th tid) ∧ (t.th tid).quiet (s.th tid))

/-- R233, R234: `ATOM` and `ARED` replace the value at their address by the operation's, as one step; `ATOM` leaves the old value pending and
counts its flag, `ARED` counts none. (Over spaces 1 and 2 the address is a sum modulo 2^32: log 65.) -/
def Obligations.Atomics : Prop :=
  ∀ f s g op b tid n, Untraced s tid → (s.th tid).helper = false →
    Reaches s tid f.sp.toNat 1 (memW f) true true (memEa f (s.th tid) 0) g.pc (.loc n) → s.poisoned n (memW f) = false →
    s.inHst n (memW f) = false →
    (∀ k, Solo (.atom f) s g op b tid → hdrFlag g.hdr f.fs = some k → Leads (exec (.atom f) s) fun t =>
      Went s t g tid ∧ MemOnly s t ∧ atomSpec f (s.rd n (memW f)) (memDatum f (s.th tid)).1 (memDatum f (s.th tid)).2 (t.rd n (memW f)) ∧
      MemBut s t n (memW f) ∧ (t.th tid).keepsRegs (s.th tid) ∧
      (t.th tid).awaits (s.th tid) k { flag := k, dst := f.d, vals := loadWords (memW f) false (s.rd n (memW f)), src := .here }) ∧
    (Solo (.ared f) s g op b tid → Leads (exec (.ared f) s) fun t =>
      Went s t g tid ∧ MemOnly s t ∧ atomSpec f (s.rd n (memW f)) (memDatum f (s.th tid)).1 (memDatum f (s.th tid)).2 (t.rd n (memW f)) ∧
      MemBut s t n (memW f) ∧ (t.th tid).keepsRegs (s.th tid) ∧ (t.th tid).quiet (s.th tid))

/-- R235, R236, R219, R220: the fabric words of a thread that is no helper, on memory of this device: `FLD` leaves the loaded words pending,
`FATOM` the old value, and `FST` stores its data, then adds 1 to its flag; each counts its flag. -/
def Obligations.FabricLocal : Prop :=
  ∀ f s g op b tid k pl n, Untraced s tid → (s.th tid).helper = false → hdrFlag g.hdr f.fs = some k →
    pl.remote s = (s.gdn, n) → s.fabCheck n (memW f) = none →
    (Solo (.fld f) s g op b tid → Reaches s tid 3 2 (memW f) true false (memEa f (s.th tid) (memW f)) g.pc pl →
      Leads (exec (.fld f) s) fun t =>
        Went s t g tid ∧ MemSame s t ∧ (t.th tid).keepsRegs (s.th tid) ∧
        (t.th tid).awaits (s.th tid) k { flag := k, dst := f.d, vals := loadWords (memW f) f.sx (s.rd n (memW f)), src := .here,
                                         va := memEa f (s.th tid) (memW f), w := memW f, sx := f.sx }) ∧
    (Solo (.fatom f) s g op b tid → Reaches s tid 3 2 (memW f) true true (memEa f (s.th tid) 0) g.pc pl → s.inHst n (memW f) = false →
      signalOf n = none →
      Leads (exec (.fatom f) s) fun t =>
        Went s t g tid ∧ atomSpec f (s.rd n (memW f)) (memDatum f (s.th tid)).1 (memDatum f (s.th tid)).2 (t.rd n (memW f)) ∧
        MemBut s t n (memW f) ∧ (t.th tid).keepsRegs (s.th tid) ∧
        (t.th tid).awaits (s.th tid) k { flag := k, dst := f.d, vals := loadWords (memW f) false (s.rd n (memW f)), src := .here,
                                         va := memEa f (s.th tid) 0, w := memW f }) ∧
    (Solo (.fst f) s g op b tid → Reaches s tid 3 2 (memW f) false true (memEa f (s.th tid) (memW f)) g.pc pl → s.inHst n (memW f) = false →
      (f.d = .vz → Leads (exec (.fst f) s) fun t =>
        Went s t g tid ∧ Holds t n (natLe (memW f) ((s.th tid).data (memW f) f.x)) ∧ MemBut s t n (memW f) ∧
        (t.th tid).keepsRegs (s.th tid) ∧
        (t.th tid).awaits (s.th tid) k { flag := k, dst := .vz, vals := [], src := .here, va := memEa f (s.th tid) (memW f) }) ∧
      (∀ q fl, f.d ≠ .vz → Reaches (s.acs tid 3 2 (memW f) false true (memEa f (s.th tid) (memW f)) g.pc).2 tid 3 2 8 true true
          (((s.th tid).val64 f.d).toNat % 2 ^ 56) g.pc fl → fl.remote s = (s.gdn, q) → s.fabCheck q 8 = none → q % 8 = 0 →
        s.inHst q 8 = false → q + 8 ≤ n ∨ n + memW f ≤ q →
        Leads (exec (.fst f) s) fun t =>
          Went s t g tid ∧ Holds t n (natLe (memW f) ((s.th tid).data (memW f) f.x)) ∧ t.rd q 8 = (s.rd q 8 + 1) % 2 ^ 64 ∧
          (∀ a, ¬(n ≤ a ∧ a < n + memW f) → ¬(q ≤ a ∧ a < q + 8) → t.byte a = s.byte a) ∧ (t.th tid).keepsRegs (s.th tid) ∧
          (t.th tid).awaits (s.th tid) k { flag := k, dst := .vz, vals := [], src := .here, va := memEa f (s.th tid) (memW f)
                                           fva := ((s.th tid).val64 f.d).toNat % 2 ^ 56 }))

/-- R235, R236, R353, R357: the fabric words of a thread that is no helper, on memory of another device with room for one more request: the
flag counts, a request of the word's kind is outstanding, its result is pending under the request's tag, and no byte of this device changes; a
flagged `FST` sends the address of its flag before its data. -/
def Obligations.FabricRemote : Prop :=
  ∀ f s g op b tid k pl gdn n, Untraced s tid → (s.th tid).helper = false → hdrFlag g.hdr f.fs = some k →
    pl.remote s = (gdn, n) → gdn ≠ s.gdn → s.outTo gdn < 256 →
    (Solo (.fld f) s g op b tid → Reaches s tid 3 2 (memW f) true false (memEa f (s.th tid) (memW f)) g.pc pl →
      Leads (exec (.fld f) s) fun t =>
        Went s t g tid ∧ MemSame s t ∧ (t.th tid).keepsRegs (s.th tid) ∧ ∃ tag, Asked t tid gdn 0 f.w.toNat 0 n tag [] ∧
        (t.th tid).awaits (s.th tid) k { flag := k, dst := f.d, vals := [], src := .fabric tag, va := memEa f (s.th tid) (memW f)
                                         w := memW f, sx := f.sx, pc := g.pc }) ∧
    (Solo (.fatom f) s g op b tid → Reaches s tid 3 2 (memW f) true true (memEa f (s.th tid) 0) g.pc pl →
      Leads (exec (.fatom f) s) fun t =>
        Went s t g tid ∧ MemSame s t ∧ (t.th tid).keepsRegs (s.th tid) ∧ ∃ tag,
        Asked t tid gdn 4 (16 * f.aop) f.aty.code n tag (natLe (memW f) (memDatum f (s.th tid)).1 ++
          if f.aop = 7 then natLe (memW f) (memDatum f (s.th tid)).2 else []) ∧
        (t.th tid).awaits (s.th tid) k { flag := k, dst := f.d, vals := [], src := .fabric tag, va := memEa f (s.th tid) 0
                                         w := memW f, pc := g.pc }) ∧
    (Solo (.fst f) s g op b tid → Reaches s tid 3 2 (memW f) false true (memEa f (s.th tid) (memW f)) g.pc pl → f.d = .vz →
      Leads (exec (.fst f) s) fun t =>
        Went s t g tid ∧ MemSame s t ∧ (t.th tid).keepsRegs (s.th tid) ∧ ∃ tag,
        Asked t tid gdn 2 f.w.toNat 0 n tag (natLe (memW f) ((s.th tid).data (memW f) f.x)) ∧
        (t.th tid).awaits (s.th tid) k { flag := k, dst := .vz, vals := [], src := .fabric tag, va := memEa f (s.th tid) (memW f)
                                         pc := g.pc }) ∧
    (∀ q fl, Solo (.fst f) s g op b tid → Reaches s tid 3 2 (memW f) false true (memEa f (s.th tid) (memW f)) g.pc pl → f.d ≠ .vz →
      Reaches (s.acs tid 3 2 (memW f) false true (memEa f (s.th tid) (memW f)) g.pc).2 tid 3 2 8 true true
        (((s.th tid).val64 f.d).toNat % 2 ^ 56) g.pc fl → fl.remote s = (gdn, q) →
      Leads (exec (.fst f) s) fun t =>
        Went s t g tid ∧ MemSame s t ∧ (t.th tid).keepsRegs (s.th tid) ∧ ∃ tag,
        Asked t tid gdn 3 f.w.toNat 0 n tag (natLe 8 q ++ natLe (memW f) ((s.th tid).data (memW f) f.x)) ∧
        (t.th tid).awaits (s.th tid) k { flag := k, dst := .vz, vals := [], src := .fabric tag, va := memEa f (s.th tid) (memW f)
                                         pc := g.pc, fva := ((s.th tid).val64 f.d).toNat % 2 ^ 56 })

/-- What an `MCST` adds to its flag: nothing for `vz`, else 1 at an offset in the page of the same group (R237). -/
def McFlag (f : Mem) (s : State) (g : Group) (tid grp : Nat) : Option Nat → Prop
  | none => f.d = .vz
  | some o => f.d ≠ .vz ∧ ∃ fl, fl.remote s = (grp, o) ∧
      Reaches (s.acs tid 3 3 (memW f) false true (memEa f (s.th tid) (memW f)) g.pc).2 tid 3 3 8 true true
        (((s.th tid).val64 f.d).toNat % 2 ^ 56) g.pc fl

/-- R237, R362: `MCST` of a thread that is no helper, with a flag or without.  To a group of which one member is valid, this device: the data are
stored in its frame, then 1 is added to the flag there, the slot's flag counts, and the result is pending without an error.  To a group whose valid
members are other devices, with room for a request to each: every member of the pod is asked to store the data in its frame, and to add to the flag
there, members of other pods fail with code 5, and the result is pending under the requests' tags.  (A flag's address stands before the data: log
25.) -/
def Obligations.MulticastStore : Prop :=
  ∀ f s g op b tid k pl grp off flag, Solo (.mcst f) s g op b tid → Untraced s tid → (s.th tid).helper = false →
    hdrFlag g.hdr f.fs = some k → Reaches s tid 3 3 (memW f) false true (memEa f (s.th tid) (memW f)) g.pc pl → pl.remote s = (grp, off) →
    McFlag f s g tid grp flag →
    (∀ m n, s.pkg.member < 2 ^ 10 → m < 64 → (∀ j, j < 64 → ((s.mcEntry grp j).1 = true ↔ j = m)) → (s.mcEntry grp m).2.2 = s.gdn →
      n = (s.mcEntry grp m).2.1 + off → s.fabCheck n (memW f) = none → s.inHst n (memW f) = false →
      (n + memW f ≤ s.pkg.mcbase + 512 * grp ∨ s.pkg.mcbase + 512 * grp + 512 ≤ n) →
      (flag = none → Leads (exec (.mcst f) s) fun t =>
        Went s t g tid ∧ Holds t n (natLe (memW f) ((s.th tid).data (memW f) f.x)) ∧ MemBut s t n (memW f) ∧
        (t.th tid).keepsRegs (s.th tid) ∧ (t.th tid).awaits (s.th tid) k { flag := k, dst := .vz, vals := [], src := .here }) ∧
      (∀ o q, flag = some o → q = (s.mcEntry grp m).2.1 + o → s.fabCheck q 8 = none → q % 8 = 0 → s.inHst q 8 = false →
        q + 8 ≤ n ∨ n + memW f ≤ q → (q + 8 ≤ s.pkg.mcbase + 512 * grp ∨ s.pkg.mcbase + 512 * grp + 512 ≤ q) →
        Leads (exec (.mcst f) s) fun t =>
          Went s t g tid ∧ Holds t n (natLe (memW f) ((s.th tid).data (memW f) f.x)) ∧ t.rd q 8 = (s.rd q 8 + 1) % 2 ^ 64 ∧
          (∀ a, ¬(n ≤ a ∧ a < n + memW f) → ¬(q ≤ a ∧ a < q + 8) → t.byte a = s.byte a) ∧
          (t.th tid).keepsRegs (s.th tid) ∧ (t.th tid).awaits (s.th tid) k { flag := k, dst := .vz, vals := [], src := .here })) ∧
    ((∀ m, m < 64 → (s.mcEntry grp m).1 = true → (s.mcEntry grp m).2.2 ≠ s.gdn ∧ s.outTo (s.mcEntry grp m).2.2 + 64 ≤ 256) →
      (∃ m, m < 64 ∧ (s.mcEntry grp m).1 = true ∧ (s.mcEntry grp m).2.2 / 2 ^ 10 = s.pkg.pod) → s.fab.out.length + 64 ≤ 2 ^ 16 →
      Leads (exec (.mcst f) s) fun t =>
        Went s t g tid ∧ MemSame s t ∧ (t.th tid).keepsRegs (s.th tid) ∧ ∃ tags failed nak,
        (t.th tid).awaits (s.th tid) k { flag := k, dst := .vz, vals := [], src := .mcast tags, va := memEa f (s.th tid) (memW f), failed, nak
                                         pc := g.pc } ∧
        (failed ≠ 0 → nak = 5) ∧
        ∀ m v frame gdn, m < 64 → s.mcEntry grp m = (v, frame, gdn) →
          (failed.testBit m = true ↔ v = true ∧ gdn / 2 ^ 10 ≠ s.pkg.pod) ∧
          ((∃ tag, (tag, m) ∈ tags) ↔ v = true ∧ gdn / 2 ^ 10 = s.pkg.pod) ∧
          ∀ tag, (tag, m) ∈ tags → Asked t tid gdn 5 f.w.toNat 0 (frame + off) tag
            ((match flag with | some o => natLe 8 (frame + o) | none => []) ++ natLe (memW f) ((s.th tid).data (memW f) f.x)))

/-- The tile word of a thread names a descriptor whose elements, inside the tensor, all lie in memory (R238, R240). -/
structure TileAt (f : Mem) (ld : Bool) (s : State) (g : Group) (op : Nat) (b : Body) (tid : Nat) (d : Tile)
    (es : List (Nat × Option (Nat × Nat))) (ps : List (Nat × Place)) : Prop where
  desc : (s.env g op b).tile = some d
  elems : es = s.tileElems tid d (pcAddr g.pc) d.count (memIter f (s.th tid))
  places : (s.tilePlaces tid d ld (!ld) g.pc es).1 = .ok ps
  memory : ∀ p ∈ ps, ∃ n, p.2 = .loc n
  clean : ld = true → s.firstPoison d.esize ps = none

/-- R240, R289, R290: `TLD` leaves its lane's fragment pending: each element inside the tensor as memory holds it, 0 for each outside.  `TST`
of whole-byte elements that do not overlap stores each element inside the tensor and no other byte. -/
def Obligations.TileWords : Prop :=
  ∀ f s g op b tid d es ps, Untraced s tid → (s.th tid).helper = false →
    (Solo (.tld f) s g op b tid → TileAt f true s g op b tid d es ps → ∀ k, hdrFlag g.hdr f.fs = some k →
      Leads (exec (.tld f) s) fun t =>
        Went s t g tid ∧ MemSame s t ∧ (t.th tid).keepsRegs (s.th tid) ∧ ∃ ws,
        (t.th tid).awaits (s.th tid) k { flag := k, dst := f.d, vals := ws, src := .here } ∧ ws.length = d.regs ∧
        ∀ p el, (p, el) ∈ es → wordsNat ws / 2 ^ (d.bits * p) % 2 ^ d.bits = match el with
          | none => 0
          | some (a, nib) => match placeOf ps a with
            | .loc n => s.rd n d.esize / 2 ^ (4 * nib) % 2 ^ d.bits
            | _ => 0) ∧
    (Solo (.tst f) s g op b tid → TileAt f false s g op b tid d es ps → d.bits ≠ 4 →
      (∀ p q, p ∈ ps → q ∈ ps → p ≠ q → ∀ n m, p.2 = .loc n → q.2 = .loc m → n + d.esize ≤ m ∨ m + d.esize ≤ n) →
      (∀ p q a, (p, some (a, 0)) ∈ es → (q, some (a, 0)) ∈ es → p = q) →
      (∀ p ∈ ps, ∀ n, p.2 = .loc n → s.inHst n d.esize = false) →
      Leads (exec (.tst f) s) fun t =>
        Went s t g tid ∧ (t.th tid).keepsRegs (s.th tid) ∧ (t.th tid).quiet (s.th tid) ∧
        (∀ p a, (p, some (a, 0)) ∈ es → ∀ n, placeOf ps a = .loc n →
          t.rd n d.esize = wordsNat ((s.th tid).vals d.regs f.x) / 2 ^ (d.bits * p) % 2 ^ d.bits) ∧
        ∀ a, (∀ p ∈ ps, ∀ n, p.2 = .loc n → ¬(n ≤ a ∧ a < n + d.esize)) → t.byte a = s.byte a)

/-- What the checks of `CCTL` on a line give (R247): the status, and whether the lock is held after. -/
def lockOutcome (s : State) (cid op n : Nat) : Nat × Bool :=
  let mine : Lock := { cid, lvl := op % 2, line := n / 128 }
  let held := s.locks.contains mine
  if 2 ≤ op then (if held then 0 else 3, false)
  else if inMask (s.cx cid).dies (s.homeDie n) = false then (4, held)
  else if held then (0, true)
  else if 15 ≤ countDistinct ((s.locks.filter fun l => l.lvl == op % 2 && s.lockSet (op % 2) l.line == s.lockSet (op % 2) (n / 128)).map (·.line))
    then (1, false)
  else if (if op % 2 = 0 then (s.cx cid).lockql2 else (s.cx cid).lockqllc) ≤ s.lockCount cid (op % 2) then (2, false)
  else (0, true)

/-- R241, R247, R215, R243: `PREF` changes no value; `CCTL` leaves its status pending and changes no lock but its own line's; a `FENCE` with
nothing to wait for is passed; `REC` sends one record with the payload, the edge id and the coordinates. -/
def Obligations.OtherMemoryWords : Prop :=
  ∀ f s g op b tid, Untraced s tid →
    (Solo (.pref f) s g op b tid → Leads (exec (.pref f) s) fun t =>
      Went s t g tid ∧ MemOnly s t ∧ MemSame s t ∧ (t.th tid).keepsRegs (s.th tid) ∧ (t.th tid).quiet (s.th tid)) ∧
    (∀ k n, Solo (.cctl f) s g op b tid → hdrFlag g.hdr f.fs = some k →
      Reaches s tid 0 1 1 true false (memEa f (s.th tid) 0) g.pc (.loc n) → s.locks.Nodup →
      Leads (exec (.cctl f) s) fun t =>
        Went s t g tid ∧ MemSame s t ∧ (t.th tid).keepsRegs (s.th tid) ∧
        (t.th tid).awaits (s.th tid) k
          { flag := k, dst := f.d, src := .here, vals := [.ofNat 32 (lockOutcome s (s.cidOf tid) f.off.toNat n).1] } ∧
        ∀ l, l ∈ t.locks ↔ if l = { cid := s.cidOf tid, lvl := f.off.toNat % 2, line := n / 128 }
          then (lockOutcome s (s.cidOf tid) f.off.toNat n).2 = true else l ∈ s.locks) ∧
    (Solo (.fence f) s g op b tid → s.transfersOf tid = false → (s.th tid).fabricOut = false → (s.th tid).errs = [] →
      Leads (exec (.fence f) s) fun t =>
        Went s t g tid ∧ SlotOnly s t ∧ (t.th tid).keepsRegs (s.th tid) ∧ (t.th tid).quiet (s.th tid)) ∧
    (Solo (.recW f) s g op b tid → (s.th tid).helper = false →
      s.nodeFill (s.cx (s.cidOf tid)).dies f.off.toNat < 64 →
      Leads (exec (.recW f) s) fun t =>
        Went s t g tid ∧ MemSame s t ∧ (t.th tid).keepsRegs (s.th tid) ∧ (t.th tid).quiet (s.th tid) ∧
        ∃ body, body = [((s.th tid).val64 f.x).toNat, (s.th tid).edge % 2 ^ 48, (s.blkOf tid).bx, (s.blkOf tid).by', (s.blkOf tid).bz,
            (s.gridOf tid).num, s.threadLid tid] ∧
          t.recs = s.recs ++ [{ dies := (s.cx (s.cidOf tid)).dies, node := f.off.toNat, cid := s.cidOf tid, body }])

/-! ### Barrier, transfer and tile words -/

/-- An object after an arrival that adds bytes (R269, R272): one arrival less pending; when nothing is pending any more the phase changes and
the arrivals are expected again. -/
def arrived (o p : Obj) (n : Nat) (drop : Bool) (edge : Nat) : Prop :=
  let exp := if drop then o.aexp - 1 else o.aexp
  let ends := o.apend = 1 ∧ o.bpend + n = 0
  p.aexp = exp ∧ p.bpend = o.bpend + n ∧ p.kind = o.kind ∧ p.ledge = edge ∧
  (ends → p.ph = !o.ph ∧ p.apend = exp) ∧ (¬ends → p.ph = o.ph ∧ p.apend = o.apend - 1)

/-- The object operand of a word reaches a location whose 32 bytes are no poisoned sector; no thread that waits for it is traced. -/
abbrev ObjAt (f : Xf) (s : State) (g : Group) (tid : Nat) (wr : Bool) (n : Nat) : Prop :=
  Reaches s tid f.bsp 1 32 true wr (xfAddr f (s.th tid)) g.pc (.loc n) ∧ s.poisoned n 32 = false ∧ s.inHst n 32 = false ∧
  ∀ m ∈ s.waiters n, Untraced s m

/-- An arrival's effect on the rest: the object alone changes in memory; threads that wait for the object are Ready when its phase changes. -/
def ArrivalAround (s t : State) (g : Group) (tid n : Nat) (o : Obj) (k : Nat) : Prop :=
  (t.th tid).pc = g.nextPc ∧ MemBut s t n 32 ∧
  (∀ m, m ≠ tid → m ∉ s.waiters n → t.th m = s.th m) ∧
  (¬(o.apend = 1 ∧ o.bpend + k = 0) → ∀ m, m ≠ tid → t.th m = s.th m) ∧
  ((o.apend = 1 ∧ o.bpend + k = 0) → ∀ m ∈ s.waiters n, (t.th m).st = .ready)

/-- R266, R269, R272, R273: the object words of a thread that is no helper. `BINIT` makes the object of its operands; `BARV`, `BARX` and `BDROP`
arrive, `BARX` with its byte count and `BDROP` with one expected arrival less, and an arrival that completes the phase flips it and makes the
waiting threads Ready; `BARV` and `BARX` give the phase before; `BWAIT` goes on when the phase differs from its token and blocks when it does not;
`BTEST` tells which, and changes nothing. -/
def Obligations.BarrierWords : Prop :=
  ∀ f s g op b tid n o, Untraced s tid → (s.th tid).helper = false → o = s.obj n →
    (Solo (.binit f) s g op b tid → ObjAt f s g tid true n → ((s.th tid).val f.b).toNat < 2 ^ 21 →
      Leads (exec (.binit f) s) fun t =>
        Went s t g tid ∧ MemOnly s t ∧ MemBut s t n 32 ∧ (t.th tid).keepsRegs (s.th tid) ∧ (t.th tid).quiet (s.th tid) ∧
        t.obj n = { apend := ((s.th tid).val f.b).toNat, aexp := ((s.th tid).val f.b).toNat, kind := binitKind f.bsp }) ∧
    (Solo (.barv f) s g op b tid → ObjAt f s g tid true n → o.ready = true → o.apend ≠ 0 →
      Leads (exec (.barv f) s) fun t =>
        ArrivalAround s t g tid n o 0 ∧ arrived o (t.obj n) 0 false ((s.th tid).edge % 2 ^ 48) ∧
        (t.th tid).gets f.d [if o.ph then 1 else 0] ∧ (t.th tid).keepsBut (s.th tid) f.d 1 ∧ (t.th tid).quiet (s.th tid)) ∧
    (Solo (.barx f) s g op b tid → ObjAt f s g tid true n → o.ready = true → o.apend ≠ 0 →
      o.bpend + ((s.th tid).val f.b).toNat ≤ 2 ^ 39 - 1 →
      Leads (exec (.barx f) s) fun t =>
        ArrivalAround s t g tid n o ((s.th tid).val f.b).toNat ∧
        arrived o (t.obj n) ((s.th tid).val f.b).toNat false ((s.th tid).edge % 2 ^ 48) ∧
        (t.th tid).gets f.d [if o.ph then 1 else 0] ∧ (t.th tid).keepsBut (s.th tid) f.d 1 ∧ (t.th tid).quiet (s.th tid)) ∧
    (Solo (.bdrop f) s g op b tid → ObjAt f s g tid true n → o.ready = true → o.apend ≠ 0 → o.aexp ≠ 0 →
      Leads (exec (.bdrop f) s) fun t =>
        ArrivalAround s t g tid n o 0 ∧ arrived o (t.obj n) 0 true ((s.th tid).edge % 2 ^ 48) ∧
        (t.th tid).keepsRegs (s.th tid) ∧ (t.th tid).quiet (s.th tid)) ∧
    (Solo (.bwait f) s g op b tid → ObjAt f s g tid false n →
      (o.ph ≠ ((s.th tid).val f.b).getLsbD 0 → Leads (exec (.bwait f) s) fun t =>
        Went s t g tid ∧ MemSame s t ∧ (t.th tid).keepsRegs (s.th tid) ∧ (t.th tid).quiet (s.th tid)) ∧
      (o.ph = ((s.th tid).val f.b).getLsbD 0 → (s.th tid).stepping = false → Leads (exec (.bwait f) s) fun t =>
        Alone s t tid ∧ MemSame s t ∧ (t.th tid).keepsRegs (s.th tid) ∧ (t.th tid).quiet (s.th tid) ∧
        (t.th tid).st = .blocked ∧ (t.th tid).wait = .barrier n g.nextPc ∧ (t.th tid).pc = g.pc)) ∧
    (Solo (.btest f) s g op b tid → ObjAt f s g tid false n →
      Leads (exec (.btest f) s) fun t =>
        Went s t g tid ∧ MemSame s t ∧ (t.th tid).keepsBut (s.th tid) f.d 1 ∧ (t.th tid).quiet (s.th tid) ∧
        (t.th tid).has f.d false ((if o.ph = ((s.th tid).val f.b).getLsbD 0 then 0 else 1) + if o.ph then 2 else 0))

/-- `BXC` or `BXS` passes the checks of R277: the template read, the object, and the bounds of its scratchpad region. -/
structure StartsAt (f : Xf) (store : Bool) (s : State) (g : Group) (op : Nat) (b : Body) (tid : Nat) (tm : Tmpl) (obj : Option (Nat × Nat))
    (base off bound : Nat) : Prop where
  tmpl : (s.tmplAt tid (s.cidOf tid) f.tmpl.toNat g.pc).1 = .ok (some tm)
  object : ((s.tmplAt tid (s.cidOf tid) f.tmpl.toNat g.pc).2.xfObj tid f (s.env g op b)).1 = .ok obj
  form : tm.reason store = none
  spad : s.xfSpad tid (!store && f.mod.getLsbD 3) ((s.th tid).val f.c).toNat (pcAddr g.pc) = some (base, off, bound)
  fits : tm.spadOk ((s.th tid).val f.c).toNat = true ∧ off + tm.foot ≤ bound
  post : s.postCheck tm obj (f.mod.getLsbD 2) = none

/-- The transfer that a word starts. -/
def started (f : Xf) (store : Bool) (s : State) (g : Group) (tid : Nat) (tm : Tmpl) (obj : Option (Nat × Nat)) (base off : Nat) : Xfer :=
  { tid := some tid, cid := s.cidOf tid, num := f.tmpl.toNat, pc := g.pc, tmpl := tm, store, coord := xfCoord f (s.th tid), base, c := off, obj,
    edge := (s.th tid).edge % 2 ^ 48, seq := 0, done := [] }

/-- A transfer that enters a channel adds its bytes to its object alone, which completes no phase. -/
def PostsTo (s : State) (x : Xfer) (nopost : Bool) : Prop :=
  ∀ l va, x.obj = some (l, va) → nopost = false →
    (s.obj l).apend ≠ 0 ∧ s.inHst l 32 = false ∧ devLoc l = false ∧ s.objWaits l va x.cid = false ∧
    (s.obj l).bpend + x.tmpl.boxBytes ≤ 2 ^ 39 - 1

/-- A slot has put one transfer at the end of its channel and, with a post, added its bytes to the object (R277, R279). -/
structure Entered (s t : State) (g : Group) (tid ch : Nat) (x : Xfer) (nopost : Bool) : Prop where
  went : (t.th tid).pc = g.nextPc ∧ (∀ m, m ≠ tid → t.th m = s.th m) ∧ (t.th tid).shell = (s.th tid).shell
  quiet : (t.th tid).keepsRegs (s.th tid) ∧ (t.th tid).quiet (s.th tid)
  queued : ∃ q, ((t.co s.turn).chan ch).xs = ((s.co s.turn).chan ch).xs ++ [{ x with seq := q }]
  silent : x.obj = none ∨ nopost = true → MemSame s t
  posted : ∀ l va, x.obj = some (l, va) → nopost = false →
    MemBut s t l 32 ∧ (t.obj l).bpend = (s.obj l).bpend + x.tmpl.boxBytes ∧ (t.obj l).ph = (s.obj l).ph

/-- What a start comes to (R277, R280): a transfer that finds a place in its channel enters it; one that finds 16 queued waits in its group, which stands
where it stood; and one that waits so enters once a place is free. -/
def Starts (i : Instr) (f : Xf) (store : Bool) (s : State) (g : Group) (op : Nat) (b : Body) (tid : Nat) : Prop :=
  (∀ tm obj base off bound x, Solo i s g op b tid → StartsAt f store s g op b tid tm obj base off bound →
    x = started f store s g tid tm obj base off →
    (((s.co s.turn).chan f.ch.toNat).xs.length < 16 → PostsTo s x (f.mod.getLsbD 2) →
      Leads (exec i s) fun t => Entered s t g tid f.ch.toNat x (f.mod.getLsbD 2)) ∧
    (16 ≤ ((s.co s.turn).chan f.ch.toNat).xs.length → Leads (exec i s) fun t =>
      MemSame s t ∧ (∀ m, t.th m = s.th m) ∧ (∀ c ch, (t.co c).chan ch = (s.co c).chan ch) ∧ t.cur = some { g with waitX := [x] })) ∧
  ∀ x, s.cur = some g → i.core = some (op, b) → g.members = [tid] → s.resident tid = true → g.waitX = [x] →
    ((s.co s.turn).chan f.ch.toNat).xs.length < 16 → PostsTo s x (f.mod.getLsbD 2) →
    Leads (exec i s) fun t => Entered s t g tid f.ch.toNat x (f.mod.getLsbD 2)

/-- `BXCAN` has emptied its channel, which is Idle, and `D` holds the number of transfers cancelled (R282). -/
structure Cancelled (f : Xf) (s t : State) (g : Group) (tid : Nat) : Prop where
  went : (t.th tid).pc = g.nextPc ∧ ∀ m, m ≠ tid → t.th m = s.th m
  chan : ((t.co s.turn).chan f.ch.toNat).xs = [] ∧ ((t.co s.turn).chan f.ch.toNat).faulted = false
  count : (t.th tid).gets f.d [.ofNat 32 ((s.co s.turn).chan f.ch.toNat).xs.length]
  rest : (t.th tid).keepsBut (s.th tid) f.d 1 ∧ (t.th tid).quiet (s.th tid)

/-- R276, R277, R280, R282, R285: `BXC` and `BXS` put one transfer at the end of their channel and, with a post, add its bytes to the object, or
wait in their group while 16 are queued (where a start waits: log 106); `TMPL` stores 32 bytes of the template; `PUB` empties the record of every
Shadowed page of its handle; `BXCAN` cancels and counts the transfers of the channel, and delivers what a cancelled one has not delivered to its
object. -/
def Obligations.TransferWords : Prop :=
  ∀ f s g op b tid, Untraced s tid → (s.th tid).helper = false →
    Starts (.bxc f) f false s g op b tid ∧ Starts (.bxs f) f true s g op b tid ∧
    (∀ n, Solo (.tmpl f) s g op b tid →
      (s.pageAcs tid 1 false true (((s.cx (s.cidOf tid)).tmplbase + 256 * f.tmpl.toNat + 32 * f.mod.toNat) % 2 ^ 56) g.pc).1 = .at (.loc n) →
      s.inHst n 32 = false →
      Leads (exec (.tmpl f) s) fun t =>
        Went s t g tid ∧ MemOnly s t ∧ Holds t n (((s.th tid).vals 8 f.b).flatMap fun w => natLe 4 w.toNat) ∧ MemBut s t n 32 ∧
        (t.th tid).keepsRegs (s.th tid) ∧ (t.th tid).quiet (s.th tid)) ∧
    (Solo (.pub f) s g op b tid → Tbl.wf {} s.held = true →
      Leads (exec (.pub f) s) fun t =>
        Went s t g tid ∧ (t.th tid).keepsRegs (s.th tid) ∧ (t.th tid).quiet (s.th tid) ∧
        ∀ k h, Tbl.get {} s.held k = h →
          (((s.th tid).val f.a).toNat % 2 ^ 24 ≠ 0 ∧ k / 2 ^ 40 = (s.cx (s.cidOf tid)).asid ∧ h.st = 4 ∧
            h.handle = ((s.th tid).val f.a).toNat % 2 ^ 24 → Tbl.get {} t.held k = { h with written := [] }) ∧
          (¬(((s.th tid).val f.a).toNat % 2 ^ 24 ≠ 0 ∧ k / 2 ^ 40 = (s.cx (s.cidOf tid)).asid ∧ h.st = 4 ∧
            h.handle = ((s.th tid).val f.a).toNat % 2 ^ 24) → Tbl.get {} t.held k = h)) ∧
    (Solo (.bxcan f) s g op b tid →
      ((∀ x ∈ ((s.co s.turn).chan f.ch.toNat).xs, x.obj = none) → Leads (exec (.bxcan f) s) fun t => Cancelled f s t g tid ∧ MemSame s t) ∧
      ∀ x l va, ((s.co s.turn).chan f.ch.toNat).xs = [x] → x.obj = some (l, va) → (s.obj l).apend ≠ 0 → s.inHst l 32 = false →
        devLoc l = false → s.objWaits l va x.cid = false → -2 ^ 39 ≤ (s.obj l).bpend - (x.tmpl.e * (x.tmpl.count - x.done.length) : Nat) →
        Leads (exec (.bxcan f) s) fun t =>
          Cancelled f s t g tid ∧ MemBut s t l 32 ∧ (t.obj l).bpend = (s.obj l).bpend - (x.tmpl.e * (x.tmpl.count - x.done.length) : Nat) ∧
          (t.obj l).ph = (s.obj l).ph)

/-- n and k of a shape, the bits of an input element, and its type, where m is 16 (R287). -/
def mmaShape : Nat → Nat × Nat × Nat × Ty
  | 0 => (8, 8, 64, .f64)
  | 1 => (8, 16, 32, .f32)
  | 2 => (16, 32, 16, .bf16)
  | 3 => (16, 32, 16, .f16)
  | 4 => (16, 64, 8, .e4m3)
  | 5 => (16, 64, 8, .e5m2)
  | 6 => (16, 64, 8, .s8)
  | _ => (16, 128, 4, .bf16)

/-- Bits of the registers that an operand names, from a bit offset on; zero for `vz` (R289, R292). -/
def Sys2Proof.Machine.Thr.fragBits (t : Thr) (o : Opnd) (off n : Nat) : Nat :=
  match o with
  | .reg r => (t.reg (r.val + off / 32)).toNat / 2 ^ (off % 32) % 2 ^ n + if n = 64 then 2 ^ 32 * (t.reg (r.val + off / 32 + 1)).toNat else 0
  | _ => 0

/-- The element at a lane and position of the fragments of a round's signers: its bits, and 0 from a lane that is none (R289, R295). -/
def mmaBits (s : State) (gk : Nat) (tids : List Nat) (o : Opnd) (bits lane p : Nat) : Nat :=
  if gkTid gk lane ∈ tids then (s.th (gkTid gk lane)).fragBits o (bits * p) bits else 0

/-- A(m, k) of a round, as bits: `f` gets the lane and the position (R289). -/
def atA {α : Type} (shape m k : Nat) (f : Nat → Nat → α) : α :=
  f (m + 16 * (k / ((mmaShape shape).2.1 / 2))) (k % ((mmaShape shape).2.1 / 2))

/-- B(k, n). -/
def atB {α : Type} (shape k n : Nat) (f : Nat → Nat → α) : α :=
  let kb := (mmaShape shape).2.1 * (mmaShape shape).1 / 32
  f (n + (mmaShape shape).1 * (k / kb)) (k % kb)

/-- The value of an input element (R287): of a code, its entry in a codebook slot, which the lowest signer selects (R129, R292). -/
def mmaVal (s : State) (gk : Nat) (f : Tl) (tids : List Nat) (isB : Bool) (lane p : Nat) : FV :=
  let (_, _, bits, ty) := mmaShape f.shape.toNat
  let x := mmaBits s gk tids (if isB then f.b else f.a) bits lane p
  if gkTid gk lane ∉ tids then .fin false 0 0
  else if f.shape = 7 then
    (ffmt .bf16).val ((s.gg gk).entry ((s.th (tids.headD 0)).fragBits f.c 32 32 / (if isB then 16 else 1) % 16) x).toNat
  else (ffmt ty).val x

/-- The exponent of the scale of a block (R131, R132): 0 for a unit scale, none for NaN. -/
def mmaScale (s : State) (gk : Nat) (f : Tl) (tids : List Nat) (isB : Bool) (row kb : Nat) : Option Int :=
  let lane := row + 16 * (kb % 2)
  let e := (s.th (gkTid gk lane)).fragBits f.c (8 * (f.bs.toNat + kb / 2 + if isB then (mmaShape f.shape.toNat).2.1 / 32 / 2 else 0)) 8
  if f.bs = 4 ∨ gkTid gk lane ∉ tids then some 0 else if e = 255 then none else some ((e : Int) - 127)

/-- D(m, n) of the product, as bits (R133, R134). -/
def mmaProduct (s : State) (gk : Nat) (f : Tl) (tids : List Nat) (m n : Nat) : Nat :=
  let sh := f.shape.toNat
  let (nn, kk, bits, _) := mmaShape sh
  let c := mmaBits s gk tids f.d (if sh = 0 then 64 else 32) (m + 16 * (n / (nn / 2))) (n % (nn / 2))
  if sh = 6 then
    (((c : Int) + ((upto kk).map fun k => sextNat 8 (atA sh m k (mmaBits s gk tids f.a bits)) *
      sextNat 8 (atB sh k n (mmaBits s gk tids f.b bits))).sum) % 2 ^ 32).toNat
  else
    let acc := ffmt (if sh = 0 then .f64 else .f32)
    let product (k : Nat) : FV := (atA sh m k (mmaVal s gk f tids false)).mul (atB sh k n (mmaVal s gk f tids true))
    let block (kb : Nat) : FV :=
      match mmaScale s gk f tids false m kb, mmaScale s gk f tids true n kb with
      | some x, some y => (exactSum false ((upto 32).map fun i => product (32 * kb + i))).scale (x + y)
      | _, _ => .nan
    acc.ofFV .rne false (exactSum false (acc.val c :: if sh = 4 ∨ sh = 5 ∨ sh = 7 then (upto (kk / 32)).map block else (upto kk).map product))

/-- R131 to R134, R287, R289, R293, R295, R296, R299: a signature that completes a round issues the operation: every signer's flag counts, and its
fragment of the product is pending, which for signers without a pending matrix result is that of their registers; one that does not complete it
leaves the thread Blocked; `JSET` and `JCLR` declare and clear a join register; `CBLD` loads two codebook entries a lane. -/
def Obligations.MatrixWords : Prop :=
  ∀ f s g op b tid gk r, Untraced s tid → gk = tidGk tid → r = (s.gg gk).join f.j.toNat →
    (∀ k tids, Solo (.mma f) s g op b tid → (s.th tid).st = .ready → hdrFlag g.hdr f.fs = some k → r.decl = true →
      r.members.testBit (tidLane tid) = true → r.issuing = false → (∀ pc, s.roundPc gk r = some pc → pc = g.pc) →
      tids = maskTids gk (r.signed ||| 2 ^ tidLane tid) →
      (r.members &&& (r.signed ||| 2 ^ tidLane tid) = r.members → eccTraps s tids (mmaRegs f) = [] →
        (s.co (s.coreOf (gkTid gk 0))).muRoom = true → (∀ m ∈ tids, (s.th m).flag k < 63) →
        Leads (exec (.mma f) s) fun t =>
          (t.th tid).pc = g.nextPc ∧ MemSame s t ∧ (∀ m, m ∉ tids → t.th m = s.th m) ∧
          (∀ m ∈ tids, (t.th m).keepsRegs (s.th m) ∧ (t.th m).flag k = (s.th m).flag k + 1 ∧
            (t.th m).pend = (s.th m).pend ++ [{ flag := k, dst := f.d, vals := (s.capture gk f tids).laneOut (tidLane m)
                                                src := .mma (s.co (s.coreOf (gkTid gk 0))).muCtr }] ∧
            ((∀ u ∈ tids, ∀ p ∈ (s.th u).pend, ∀ q, p.src ≠ .mma q) → ∀ p acc half, acc = (if f.shape = 0 then 64 else 32) →
              half = (mmaShape f.shape.toNat).1 / 2 → p < half →
              wordsNat ((s.capture gk f tids).laneOut (tidLane m)) / 2 ^ (acc * p) % 2 ^ acc =
                mmaProduct s gk f tids (tidLane m % 16) (half * (tidLane m / 16) + p))) ∧
          (t.co (s.coreOf (gkTid gk 0))).mu = (s.co (s.coreOf (gkTid gk 0))).mu ++ [{ num := (s.co (s.coreOf (gkTid gk 0))).muCtr, outs := tids }] ∧
          ((t.gg gk).join f.j.toNat).signed = 0) ∧
      (r.members &&& (r.signed ||| 2 ^ tidLane tid) ≠ r.members → (s.th tid).stepping = false →
        Leads (exec (.mma f) s) fun t =>
          MemSame s t ∧ (∀ m, m ≠ tid → t.th m = s.th m) ∧ (t.th tid).keepsRegs (s.th tid) ∧ (t.th tid).quiet (s.th tid) ∧
          (t.th tid).st = .blocked ∧ (t.th tid).wait = .join f.j.toNat ∧ (t.th tid).pc = g.pc ∧
          ((t.gg gk).join f.j.toNat).signed = r.signed ||| 2 ^ tidLane tid)) ∧
    (Solo (.jset f) s g op b tid → r.issuing = false → (s.th tid).st = .ready →
      Leads (exec (.jset f) s) fun t =>
        (t.th tid).pc = g.nextPc ∧ MemSame s t ∧ (t.th tid).keepsRegs (s.th tid) ∧ (t.th tid).quiet (s.th tid) ∧
        (((s.th tid).val f.a).toNat &&& s.liveMask gk ≠ 0 →
          (t.gg gk).join f.j.toNat = { decl := true, members := ((s.th tid).val f.a).toNat &&& s.liveMask gk }) ∧
        (((s.th tid).val f.a).toNat &&& s.liveMask gk = 0 → (t.gg gk).join f.j.toNat = {}) ∧
        ∀ m, tidGk m = gk → (s.th m).st = .blocked → (s.th m).wait = .join f.j.toNat → (t.th m).st = .ready) ∧
    (Solo (.jclr f) s g op b tid → r.issuing = false → (s.th tid).st = .ready →
      Leads (exec (.jclr f) s) fun t =>
        (t.th tid).pc = g.nextPc ∧ MemSame s t ∧ (t.th tid).keepsRegs (s.th tid) ∧ (t.th tid).quiet (s.th tid) ∧
        (t.gg gk).join f.j.toNat = {} ∧
        ∀ m, tidGk m = gk → (s.th m).st = .blocked → (s.th m).wait = .join f.j.toNat → (t.th m).st = .ready) ∧
    (Solo (.cbld f) s g op b tid → tidLane tid < 8 →
      Leads (exec (.cbld f) s) fun t =>
        (t.th tid).pc = g.nextPc ∧ MemSame s t ∧ (t.th tid).keepsRegs (s.th tid) ∧ (t.th tid).quiet (s.th tid) ∧
        (t.gg gk).entry f.shape.toNat (2 * tidLane tid) = ((s.th tid).val f.a).setWidth 16 ∧
        (t.gg gk).entry f.shape.toNat (2 * tidLane tid + 1) = (((s.th tid).val f.a) >>> 16).setWidth 16 ∧
        ∀ sl e, ¬(sl = f.shape.toNat ∧ e / 2 = tidLane tid) → e < 16 → (t.gg gk).entry sl e = (s.gg gk).entry sl e)

/-! ### Exceptions -/

/-- What taking an exception leaves of a thread (R113 to R115), given where spliced code puts it: the trap state saved, `INH` set, latches in the
shadow, and the thread at its handler's entry, with its registers and flags as they were. -/
structure Trapped (x u : Thr) (o : Bool × DWord × DWord) (code : Nat) (tval pc : DWord) : Prop where
  saved : u.tpc = pc ∧ u.tcode = code ∧ u.tval = tval ∧ u.tspl = o.1 ∧ u.tkid = o.2.1 ∧ u.topc = o.2.2 ∧ u.thlp = x.helper
  mode : u.inh = true ∧ u.lvl = x.lvl ∧ u.pp = match x.lvl with | .u => 0 | .s => 1 | .f => 2
  waits : u.st = .entering ∧ u.pc = pc
  latches : u.shadow = x.latches ∧ ∀ k, (u.latch k).valid = 0
  rest : u.keepsRegs x ∧ u.quiet x

/-- R92, R106, R115: a slot whose checks fail has no effect for any member: each that raised a cause takes the exception at the slot, the
others are Ready there, and the group ends.  R116: a cause of a thread in its handler is not taken: it makes its context Faulted with `FCAUSE` 2. -/
def Obligations.SlotTraps : Prop :=
  (∀ i s g op b, AtSlot i s g op b → slotCauses (s.env g op b) ≠ [] → g.members.Nodup →
    (∀ m ∈ g.members, s.resident m = true ∧ (s.th m).inh = false) →
    Leads (exec i s) fun t =>
      SlotOnly s t ∧ MemSame s t ∧ t.cur = none ∧ (∀ m, m ∉ g.members → t.th m = s.th m) ∧
      (∀ m c v, (m, c, v) ∈ slotCauses (s.env g op b) →
        Trapped (s.th m) (t.th m) (s.original m g.pc) c (s.origTval m c v g.pc) g.pc) ∧
      ∀ m ∈ g.members, (∀ c v, (m, c, v) ∉ slotCauses (s.env g op b)) → t.th m = { s.th m with pc := g.pc, st := .ready }) ∧
  ∀ i s g op b m c v, AtSlot i s g op b → g.members = [m] → slotCauses (s.env g op b) = [(m, c, v)] →
    s.resident m = true → (s.th m).inh = true → (s.cx (s.cidOf m)).state = 4 → (s.cx (s.cidOf m)).dies % 16 ≠ 0 →
    Leads (exec i s) fun t => (t.cx (s.cidOf m)).state = 7 ∧ (t.cx (s.cidOf m)).fcause = 2

/-- R92: checks 2 to 5 of a word come in their order, and the first that fails gives every member of the group its cause: ILLEGAL_CLAUSE with the
header, ILLEGAL_ENCODING with the word, ILLEGAL_OPERAND with the encoding and its field (of a tile word also its descriptor's index and its
fragment's base: R240), PRIV with the word; when none of them fails, the only causes left are those of check 7 and a register word in error. (Which
of two bad operands is named first, and which invalid latch, is the model's: log 18.) -/
def Obligations.CheckOrder : Prop :=
  ∀ (s : State) (g : Group) (op : Nat) (b : Body), g.members ≠ [] → let cs := slotCauses (s.env g op b)
    let each (c : Nat) (v : DWord) : List (Nat × Cause) := g.members.map fun m => (m, c, v)
    let clause := (opSet op).admitted (hdrCls g.hdr) = true ∧
      (if opTransfer op = true then g.slot = hdrLen g.hdr ∧ hdrBr g.hdr = true else ¬(g.slot = hdrLen g.hdr ∧ hdrBr g.hdr = true))
    (¬clause → cs = each 0x03 g.hdr) ∧
    let regs := (s.gridOf (g.members.headD 0)).regs
    let enc := b.encOk op = true ∧ (s.env g op b).badTile = false
    (clause → ¬enc → cs = each 0x02 (b.word op)) ∧
    (clause → enc → ∀ fld o, b.badOpnd regs op = some (fld, o) → cs = each 0x04 (.ofNat 64 (o.code + 256 * fld))) ∧
    (clause → enc → b.badOpnd regs op = none → ∀ fld o, (s.env g op b).badFrag regs = some (fld, o) →
      cs = each 0x04 (.ofNat 64 (o.code + 256 * fld))) ∧
    (clause → enc → b.badOpnd regs op = none → (s.env g op b).badFrag regs = none →
      ((s.th (g.members.headD 0)).lvl.num < b.level op → cs = each 0x06 (b.word op)) ∧
      (b.level op ≤ (s.th (g.members.headD 0)).lvl.num → ∀ m c v, (m, c, v) ∈ cs → c = 0x05 ∨ c = 0x03 ∨ c = 0x0B))

/-- R85: a member whose guard is false is untouched by any core word: where no member's guard is true the slot only advances.  R79: a word that
counts a flag standing at 63 stalls, and nothing changes. -/
def Obligations.GuardedOff : Prop :=
  (∀ i s g op b, Issues i s g op b → Acting s g b = [] →
    Leads (exec i s) fun t =>
      Slotted s t g ∧ Advances s t g ∧ MemSame s t ∧ (∀ m, (t.th m).bare = (s.th m).bare) ∧ ∀ m, (t.th m).keepsRegs (s.th m)) ∧
  ∀ i s g op b, AtSlot i s g op b → slotCauses (s.env g op b) = [] → (s.env g op b).flagFull = true → exec i s = .next s

/-- R97: a helper's `ARED`, `TST`, `REC`, `BINIT`, `BDROP`, `BXC`, `BXS`, `TMPL`, `PUB`, `BXCAN` and `STEP` have no effect but the advance of its slot;
its `FST` and `MCST` only count their flag, its `ATOM` and `FATOM` receive 0, and so does its `LD` or `FLD` that fails its checks, without a trap;
its `BARV` and `BARX` receive the object's phase and do not arrive. (So they do where the object's sector is marked: log 80.) -/
def Obligations.HelperWords : Prop :=
  ∀ i s g op b tid, Solo i s g op b tid → Untraced s tid → (s.th tid).helper = true →
    let idle := fun t => Went s t g tid ∧ MemOnly s t ∧ MemSame s t ∧ (t.th tid).keepsRegs (s.th tid)
    (∀ f : Mem, i = .ared f ∨ i = .recW f ∨ i = .tst f →
      Leads (exec i s) fun t => idle t ∧ (t.th tid).quiet (s.th tid)) ∧
    (∀ f : Xf, i ∈ [.binit f, .bdrop f, .bxc f, .bxs f, .tmpl f, .pub f, .bxcan f] →
      Leads (exec i s) fun t => idle t ∧ (t.th tid).quiet (s.th tid)) ∧
    (∀ f, i = .step f → Leads (exec i s) fun t => idle t ∧ (t.th tid).quiet (s.th tid)) ∧
    (∀ (f : Mem) k, hdrFlag g.hdr f.fs = some k →
      (i = .fst f → Leads (exec i s) fun t => idle t ∧
        (t.th tid).awaits (s.th tid) k { flag := k, dst := .vz, vals := [], src := .here, va := memEa f (s.th tid) (memW f) }) ∧
      (i = .mcst f → Leads (exec i s) fun t => idle t ∧
        (t.th tid).awaits (s.th tid) k { flag := k, dst := .vz, vals := [], src := .here }) ∧
      (i = .atom f ∨ i = .fatom f ∨
          (i = .ld f ∧ ∀ p, ¬Reaches s tid f.sp.toNat 1 (memW f) true false (memEa f (s.th tid) (memW f)) g.pc p) ∨
          (i = .fld f ∧ ∀ p, ¬Reaches s tid 3 2 (memW f) true false (memEa f (s.th tid) (memW f)) g.pc p) →
        Leads (exec i s) fun t => idle t ∧
          (t.th tid).awaits (s.th tid) k { flag := k, dst := f.d, vals := loadWords (memW f) false 0, src := .here })) ∧
    ∀ (f : Xf) n, Reaches s tid f.bsp 1 32 true false (xfAddr f (s.th tid)) g.pc (.loc n) → i = .barv f ∨ i = .barx f →
      Leads (exec i s) fun t => Went s t g tid ∧ MemOnly s t ∧ MemSame s t ∧ (t.th tid).gets f.d [if (s.obj n).ph then 1 else 0] ∧
        (t.th tid).keepsBut (s.th tid) f.d 1 ∧ (t.th tid).quiet (s.th tid)

/-! ### Control words -/

/-- What a control word leaves alone: memory, registers and flags. -/
abbrev Steady (s t : State) (tid : Nat) : Prop := MemSame s t ∧ (t.th tid).keepsRegs (s.th tid) ∧ (t.th tid).quiet (s.th tid)

/-- The address a branch word names (R189): its own plus 8 × OFF22, modulo 2^56. -/
def branchTo (g : Group) (off : BitVec 22) : Nat := ((((g.addr + 8 * g.slot : Nat) : Int) + 8 * off.toInt) % 2 ^ 56).toNat

/-- R91, R189, R190, R192, R193: `NOP` only advances; `BRA`, `CALL`, `BRX` and `RET` give the thread its new PC at slot 0, and `CALL` the address
after the clause in its link pair; `YIELD` defers the thread, unless no other thread of its gang is Ready than deferred ones, whose deferrals then end
(R107; when that is looked at: log 95); `SLEEP` passes, or blocks until its delay has gone by.  R188, R190: `BRX` and `RET`
trap with ACCESS at an address of more than 56 bits, and with MISALIGN at one that is no multiple of 8. (Which comes first: log 71.) -/
def Obligations.ControlWords : Prop :=
  (∀ s g op b tid, Untraced s tid →
      (∀ f, Solo (.nop f) s g op b tid → Leads (exec (.nop f) s) fun t => Went s t g tid ∧ SlotOnly s t ∧ Steady s t tid) ∧
      (∀ f, Solo (.bra f) s g op b tid → Leads (exec (.bra f) s) fun t =>
        Alone s t tid ∧ SlotOnly s t ∧ Steady s t tid ∧ (t.th tid).pc.toNat = branchTo g f.off) ∧
      (∀ f, Solo (.call f) s g op b tid → Leads (exec (.call f) s) fun t =>
        Alone s t tid ∧ SlotOnly s t ∧ MemSame s t ∧ (t.th tid).quiet (s.th tid) ∧ (t.th tid).pc.toNat = branchTo g f.off ∧
        (t.th tid).gets f.a (words64 (.ofNat 64 (pcAddr g.nextPc))) ∧ (t.th tid).keepsBut (s.th tid) f.a 2) ∧
      (∀ f, Solo (.brx f) s g op b tid → ((s.th tid).val64 f.a).toNat < 2 ^ 56 → ((s.th tid).val64 f.a).toNat % 8 = 0 →
        Leads (exec (.brx f) s) fun t => Alone s t tid ∧ SlotOnly s t ∧ Steady s t tid ∧ (t.th tid).pc = (s.th tid).val64 f.a) ∧
      (∀ f, Solo (.ret f) s g op b tid → ((s.th tid).val64 f.a).toNat < 2 ^ 56 → ((s.th tid).val64 f.a).toNat % 8 = 0 →
        Leads (exec (.ret f) s) fun t => Alone s t tid ∧ SlotOnly s t ∧ Steady s t tid ∧ (t.th tid).pc = (s.th tid).val64 f.a) ∧
      (∀ f, Solo (.yield f) s g op b tid → (s.th tid).stepping = false →
        let mate (u : Nat) : Prop := u ≠ tid ∧ tidGk u = tidGk tid ∧ s.offered u = true ∧ (s.th u).deferred = false
        (∀ u, mate u → Leads (exec (.yield f) s) fun t =>
          Went s t g tid ∧ SlotOnly s t ∧ Steady s t tid ∧ (t.th tid).deferred = true) ∧
        ((∀ u, ¬mate u) → Leads (exec (.yield f) s) fun t =>
          SlotOnly s t ∧ Steady s t tid ∧ (t.th tid).pc = g.nextPc ∧ (t.th tid).deferred = false ∧
          (∀ u, u ≠ tid → tidGk u = tidGk tid → t.th u = { s.th u with deferred := false }) ∧
          ∀ m, tidGk m ≠ tidGk tid → t.th m = s.th m)) ∧
      (∀ f, Solo (.sleep f) s g op b tid → ∀ d : Int, d = ((s.th tid).val f.a).toNat + f.imm.toInt →
        (d ≤ 0 → Leads (exec (.sleep f) s) fun t => Went s t g tid ∧ SlotOnly s t ∧ Steady s t tid) ∧
        (0 < d → (s.th tid).stepping = false → Leads (exec (.sleep f) s) fun t =>
          Alone s t tid ∧ SlotOnly s t ∧ Steady s t tid ∧ (t.th tid).st = .blocked ∧ (t.th tid).pc = g.pc ∧
          (t.th tid).wait = .sleep (s.time + d.toNat) g.nextPc))) ∧
  (∀ f s g op b tid, (s.th tid).inh = false → ∀ c, (2 ^ 56 ≤ ((s.th tid).val64 f.a).toNat ∧ c = 0x0A) ∨
        (((s.th tid).val64 f.a).toNat < 2 ^ 56 ∧ ((s.th tid).val64 f.a).toNat % 8 ≠ 0 ∧ c = 0x07) →
      (Solo (.brx f) s g op b tid → Leads (exec (.brx f) s) fun t => MemSame s t ∧
        Trapped (s.th tid) (t.th tid) (s.original tid g.pc) c ((s.th tid).val64 f.a) g.pc) ∧
      (Solo (.ret f) s g op b tid → Leads (exec (.ret f) s) fun t => MemSame s t ∧
        Trapped (s.th tid) (t.th tid) (s.original tid g.pc) c ((s.th tid).val64 f.a) g.pc))

/-- The latches of a thread after a slot (R87). -/
def lowered (g : Group) (x : Thr) : Thr :=
  { x with latches := x.latches.map fun l => { l with valid := if g.last then 0 else l.valid - 1 } }

/-- R191, R194, R391: `EXIT` ends the thread; `TRAP` and `BKPT` complete, then take their exception at the next PC with N as `TVAL`; a `BKPT` that goes
to the debugger halts the thread. -/
def Obligations.EndAndTrapWords : Prop :=
  ∀ f s g op b tid,
    (Solo (.exit f) s g op b tid → (s.th tid).errs = [] → (∀ j, ((s.gg (tidGk tid)).join j).decl = false) →
      Leads (exec (.exit f) s) fun t =>
        MemSame s t ∧ t.cur = none ∧ (∀ m, m ≠ tid → t.th m = s.th m) ∧ (t.th tid).st = .exited ∧ (t.th tid).keepsRegs (s.th tid) ∧
        ((s.th tid).helper = false → (t.blkOf tid).lastTid = tid)) ∧
    (Solo (.trap f) s g op b tid → (s.th tid).inh = false → Leads (exec (.trap f) s) fun t =>
      SlotOnly s t ∧ MemSame s t ∧ t.cur = none ∧ (∀ m, m ≠ tid → t.th m = s.th m) ∧
      Trapped (lowered g (s.th tid)) (t.th tid) (s.original tid g.nextPc) 0x15 (.ofNat 64 f.sel.toNat) g.nextPc) ∧
    (Solo (.bkpt f) s g op b tid → (s.th tid).inh = false → Untraced s tid → Leads (exec (.bkpt f) s) fun t =>
      SlotOnly s t ∧ MemSame s t ∧ t.cur = none ∧ (∀ m, m ≠ tid → t.th m = s.th m) ∧
      Trapped (lowered g (s.th tid)) (t.th tid) (s.original tid g.nextPc) 0x14 (.ofNat 64 f.sel.toNat) g.nextPc) ∧
    (∀ w, Solo (.bkpt f) s g op b tid → (s.th tid).inh = false → s.traceCtl (s.cidOf tid) = some w → w.testBit 3 = true →
      Leads (exec (.bkpt f) s) fun t =>
        SlotOnly s t ∧ Steady s t tid ∧ t.cur = none ∧ (∀ m, m ≠ tid → t.th m = s.th m) ∧
        (t.th tid).st = .halted ∧ (t.th tid).pc = g.nextPc ∧ (t.th tid).inh = false)

/-- The user record of `TRACEW` (R396): tag, helper bit, gang and lane; the data; the block's number; the grid's number and the time. -/
def userWords (s : State) (tid tag data : Nat) : List Nat :=
  let b := s.blkOf tid
  let g := s.gridOf tid
  [2 ^ 57 + tag % 2 ^ 16 * 2 ^ 40 + (if (s.th tid).helper then 2 ^ 39 else 0) + tid % 1024 / 32 * 2 ^ 34 + tid % 32 * 2 ^ 29, data,
   b.bx + g.gx * (b.by' + g.gy * b.bz), g.num * 2 ^ 32 + s.time % 2 ^ 32]

/-- R195, R196: `STEP` of a thread that is no helper puts one step mark, with its pair, its edge id and its name (R389), on its way to the Scribe;
`TRACEW` writes one user record into the trace buffer, and nothing where there is none. (The mark is the move that comes last in the agenda: log 2,
log 75.) -/
def Obligations.MarkWords : Prop :=
  ∀ s g op b tid,
    (∀ f, Solo (.step f) s g op b tid → Leads (exec (.step f) s) fun t =>
      Went s t g tid ∧ Steady s t tid ∧ ((s.th tid).helper = true → t.agenda = s.agenda) ∧
      ((s.th tid).helper = false → t.agenda = s.agenda ++
        [.event (.stepMarkArrive (s.cidOf tid) ((s.th tid).val64 f.a) (s.th tid).edge
          (tid % 1024 + 2 ^ 32 * (s.gridOf tid).num + 2 ^ 64 * ((s.blkOf tid).bx + (s.gridOf tid).gx *
            ((s.blkOf tid).by' + (s.gridOf tid).gy * (s.blkOf tid).bz))))])) ∧
    (∀ f, Solo (.tracew f) s g op b tid → Leads (exec (.tracew f) s) fun t =>
      Went s t g tid ∧ (t.th tid).keepsRegs (s.th tid) ∧ (t.th tid).quiet (s.th tid) ∧ (Untraced s tid → SlotOnly s t ∧ MemSame s t) ∧
      ∃ u, u = s.traceWrite (s.cidOf tid) [userWords s tid ((s.th tid).val f.a).toNat ((s.th tid).nat f.t f.b)] ∧ t.mem = u.mem ∧
        t.ctx = u.ctx)

/-! ### System words -/

/-- The words of a value of 32 or 64 bits. -/
def valueWords (w : Option Nat) (x : DWord) : List Word := if w = some 64 then [x.setWidth 32, (x >>> 32).setWidth 32] else [x.setWidth 32]

/-- A word that reads a value into its destination. -/
def ReadsInto (s t : State) (g : Group) (tid : Nat) (d : Opnd) (ws : List Word) : Prop :=
  Went s t g tid ∧ SlotOnly s t ∧ MemSame s t ∧ (t.th tid).gets d ws ∧ (t.th tid).keepsBut (s.th tid) d ws.length ∧
  (t.th tid).quiet (s.th tid)

/-- R114, R198, R203, R204, R342: `S2V`, `TSR` and `TOKQ` read the special value, thread-state word or power quantity of their selector, in its
width, into their destination, and change nothing else; for the selectors that have a clause here the value is given. -/
def Obligations.ReadingWords : Prop :=
  (∀ f s g op b tid,
      (Solo (.s2v f) s g op b tid → Leads (exec (.s2v f) s) fun t =>
        ReadsInto s t g tid f.d (valueWords (s2vWidth f.sel.toNat) (s.special tid f.sel.toNat g.pc))) ∧
      (Solo (.tsr f) s g op b tid → Leads (exec (.tsr f) s) fun t =>
        ReadsInto s t g tid f.d (valueWords (tsrWidth f.sel.toNat) (s.tsrWord tid f.sel.toNat))) ∧
      (Solo (.tokq f) s g op b tid → Leads (exec (.tokq f) s) fun t =>
        ReadsInto s t g tid f.d (valueWords (tokqWidth f.sel.toNat) (s.tokq s.turn f.sel.toNat ((s.th tid).val f.a).toNat)))) ∧
  (∀ (s : State) tid pc,
      (s.special tid 0x00 pc).toNat = tid % 32 ∧ (s.special tid 0x01 pc).toNat = tid % 32 / 4 ∧
      (s.special tid 0x02 pc).toNat = tid % 1024 / 32 ∧ (s.special tid 0x03 pc).toNat = tid % 1024 ∧
      (s.special tid 0x04 pc = if (s.th tid).helper then 1 else 0) ∧
      ((s.th tid).helper = false → s.special tid 0x08 pc = .ofNat 64 (tid % 1024 % (s.gridOf tid).bdx)) ∧
      s.special tid 0x10 pc = .ofNat 64 (s.blkOf tid).bx ∧ s.special tid 0x18 pc = .ofNat 64 (s.gridOf tid).gx ∧
      s.special tid 0x20 pc = .ofNat 64 (s.blkOf tid).core ∧ s.special tid 0x22 pc = .ofNat 64 ((s.blkOf tid).core / 80) ∧
      s.special tid 0x31 pc = .ofNat 64 s.time ∧ s.special tid 0x32 pc = .ofNat 64 ((s.th tid).edge % 2 ^ 48) ∧
      s.special tid 0x80 pc = (s.th tid).tpc ∧ s.special tid 0x82 pc = (s.th tid).tval ∧ s.special tid 0x84 pc = (s.th tid).tkid ∧
      s.special tid 0x85 pc = (s.th tid).topc ∧
      s.special tid 0x83 pc = .ofNat 64 ((s.th tid).pp + if (s.th tid).inh then 4 else 0) ∧
      (∀ core, s.tokq core 0 0 = .ofInt 64 ((s.co core).bucket / 256) ∧ s.tokq core 2 0 = .ofInt 64 (s.pow.bucket / 256) ∧
        s.tokq core 4 0 = .ofNat 64 s.pow.demand ∧ s.tokq core 8 0 = .ofNat 64 s.pow.tstat) ∧
      (∀ j, j < 8 → s.tsrWord tid (0x10 + j) = if ((s.gg (tidGk tid)).join j).decl
        then .ofNat 64 (((s.gg (tidGk tid)).join j).members * 2 ^ 32 + ((s.gg (tidGk tid)).join j).signed) else -1))

/-- R199, R201, R202, R115: `V2S` writes one of `TPC`, `TCAUSE`, `TVAL` and `PP` and nothing else; `RFT` returns to `TPC` at the level of `PP`, with
the latches of the shadow, and stops a thread whose `HLT` is set; a `TPC` that is no multiple of 8 traps with MISALIGN (R77; the order of the
checks, and `HLT` after the return: log 97; the end of a thread's save: log 94); `KSWAP` exchanges a trap register with its operand. -/
def Obligations.TrapStateWords : Prop :=
  ∀ s g op b tid,
    (∀ f, Solo (.v2s f) s g op b tid → Leads (exec (.v2s f) s) fun t =>
      let x := s.th tid
      SlotOnly s t ∧ MemSame s t ∧ (∀ m, m ≠ tid → t.th m = s.th m) ∧ (t.th tid).pc = g.nextPc ∧
      (t.th tid).still = Thr.still { x with
        tpc := if f.sel = 0x80 then x.val64 f.a else x.tpc, tcode := if f.sel = 0x81 then (x.val f.a).toNat % 256 else x.tcode
        tval := if f.sel = 0x82 then x.val64 f.a else x.tval, pp := if f.sel = 0x83 then (x.val f.a).toNat % 4 else x.pp }) ∧
    (∀ f, Solo (.rft f) s g op b tid → (s.th tid).pp < 2 → (s.th tid).tpc.toNat % 8 = 0 → (s.th tid).stepping = false → Leads (exec (.rft f) s) fun t =>
      let x := s.th tid
      SlotOnly s t ∧ MemSame s t ∧ (∀ m, m ≠ tid → t.th m = s.th m) ∧ t.cur = none ∧
      t.th tid = { x with
        pc := x.tpc, lvl := if x.pp = 0 then .u else .s, inh := false, latches := x.shadow, st := if x.hlt then .halted else .ready
        hlt := false, wait := .none, errs := x.errs.map fun e => { e with outer := false }
        save := if x.save = .inHandler then .done else x.save }) ∧
    (∀ f, Solo (.rft f) s g op b tid → 2 ≤ (s.th tid).pp → (s.th tid).inh = false → Leads (exec (.rft f) s) fun t => MemSame s t ∧
      Trapped (s.th tid) (t.th tid) (s.original tid g.pc) 0x02 (b.word op) g.pc) ∧
    (∀ f, Solo (.rft f) s g op b tid → (s.th tid).pp < 2 → (s.th tid).tpc.toNat % 8 ≠ 0 → (s.th tid).inh = false →
      Leads (exec (.rft f) s) fun t => MemSame s t ∧
        Trapped (s.th tid) (t.th tid) (s.original tid g.pc) 0x07 (s.th tid).tpc g.pc) ∧
    (∀ f, Solo (.kswap f) s g op b tid → Leads (exec (.kswap f) s) fun t =>
      Went s t g tid ∧ SlotOnly s t ∧ MemSame s t ∧ (t.th tid).quiet (s.th tid) ∧
      (t.th tid).gets f.d [(s.th tid).val f.a] ∧ (t.th tid).gets f.a [(s.th tid).val f.d] ∧
      (∀ r, covers f.d 1 r = false → covers f.a 1 r = false → (t.th tid).reg r = (s.th tid).reg r) ∧
      ∀ k, namesKreg f.d k = false → namesKreg f.a k = false → (t.th tid).kregs.getD k 0 = (s.th tid).kregs.getD k 0)

/-- The threads of a `HALTG` (R205): those on the lanes of A in the gang, or all of the block, the grid or the context, but for the thread itself. -/
def haltNames (s : State) (tid scope : Nat) (mask : Word) (m : Nat) : Prop :=
  m ≠ tid ∧ s.resident m = true ∧ match scope with
    | 0 => m / 32 = tid / 32 ∧ mask.getLsbD (m % 32) = true
    | 1 => m / 1024 = tid / 1024
    | 2 => (s.blkOf m).gid = (s.blkOf tid).gid
    | _ => s.cidOf m = s.cidOf tid

/-- R203, R204: `TSW` writes the status word's edge id, `HLT` and shadow validity, a shadow value, a join register, or two codebook entries. R205,
R117: `HALTG` leaves a halt posted for each named thread that is Ready or enters its handler; one that is Blocked or Fault-stalled takes it at once:
the stop form stops it; threads not named, and those Halted, Exited or Never launched, are left alone (a stop beside a posted trap, and a boundary:
log 72).  R206: `TLBI` removes the translations it names from every TLB, and no other. -/
def Obligations.ThreadStateWords : Prop :=
  (∀ f s g op b tid, Solo (.tsw f) s g op b tid → (s.th tid).st = .ready →
      (f.sel = 0 → Leads (exec (.tsw f) s) fun t =>
        let x := (s.th tid).val64 f.a
        SlotOnly s t ∧ MemSame s t ∧ (∀ m, m ≠ tid → t.th m = s.th m) ∧ (t.th tid).pc = g.nextPc ∧
        (t.th tid).edge = x.toNat / 2 ^ 16 ∧ (t.th tid).hlt = x.getLsbD 0 ∧
        (∀ k, k < 3 → ((t.th tid).shadow.getD k {}).val = ((s.th tid).shadow.getD k {}).val ∧
          ((t.th tid).shadow.getD k {}).valid = min 2 (x.toNat / 2 ^ (4 + 2 * k) % 4)) ∧ (t.th tid).keepsRegs (s.th tid) ∧
        (t.th tid).quiet (s.th tid)) ∧
      (∀ k, k < 3 → f.sel.toNat = k + 1 → Leads (exec (.tsw f) s) fun t =>
        SlotOnly s t ∧ MemSame s t ∧ (∀ m, m ≠ tid → t.th m = s.th m) ∧ (t.th tid).pc = g.nextPc ∧
        ((t.th tid).shadow.getD k {}).val = (s.th tid).val f.a ∧ ((t.th tid).shadow.getD k {}).valid = ((s.th tid).shadow.getD k {}).valid ∧
        (∀ j, j ≠ k → (t.th tid).shadow.getD j {} = (s.th tid).shadow.getD j {}) ∧ (t.th tid).keepsRegs (s.th tid) ∧
        (t.th tid).quiet (s.th tid)) ∧
      (∀ j, j < 8 → f.sel.toNat = 0x10 + j → ((s.gg (tidGk tid)).join j).issuing = false → Leads (exec (.tsw f) s) fun t =>
        let x := ((s.th tid).val64 f.a).toNat
        let m := x / 2 ^ 32 &&& s.liveMask (tidGk tid)
        SlotOnly s t ∧ MemSame s t ∧ (t.th tid).pc = g.nextPc ∧ (t.th tid).keepsRegs (s.th tid) ∧ (t.th tid).quiet (s.th tid) ∧
        (t.gg (tidGk tid)).join j = if x = 2 ^ 64 - 1 ∨ m = 0 then {} else { decl := true, members := m, signed := x % 2 ^ 32 &&& m }) ∧
      (∀ e, e < 128 → f.sel.toNat = 0x100 + e → Leads (exec (.tsw f) s) fun t =>
        SlotOnly s t ∧ MemSame s t ∧ (t.th tid).pc = g.nextPc ∧ (t.th tid).keepsRegs (s.th tid) ∧ (t.th tid).quiet (s.th tid) ∧
        Tbl.get 0 (t.gg (tidGk tid)).cb (2 * e) = ((s.th tid).val f.a).setWidth 16 ∧
        Tbl.get 0 (t.gg (tidGk tid)).cb (2 * e + 1) = ((s.th tid).val f.a >>> 16).setWidth 16 ∧
        ∀ k, k / 2 ≠ e → Tbl.get 0 (t.gg (tidGk tid)).cb k = Tbl.get 0 (s.gg (tidGk tid)).cb k)) ∧
  (∀ s g op b tid,
      (∀ f, Solo (.haltg f) s g op b tid → Tbl.wf {} s.thr = true → Leads (exec (.haltg f) s) fun t =>
        SlotOnly s t ∧ Steady s t tid ∧ (t.th tid).pc = g.nextPc ∧ (t.th tid).shell = (s.th tid).shell ∧
        ∀ m, m ≠ tid → (s.th m).st ≠ .never →
          (¬haltNames s tid (f.sel.toNat / 2) ((s.th tid).val f.a) m ∨ (s.th m).st = .halted ∨ (s.th m).st = .exited → t.th m = s.th m) ∧
          (haltNames s tid (f.sel.toNat / 2) ((s.th tid).val f.a) m → (s.th m).st = .ready ∨ (s.th m).st = .entering →
            t.th m = { s.th m with halt := some ((s.th m).halt.getD true && f.sel.getLsbD 0) }) ∧
          (haltNames s tid (f.sel.toNat / 2) ((s.th tid).val f.a) m → (s.th m).st = .blocked ∨ (s.th m).st = .stalled →
            (s.th m).inh = false → s.inGroup m = false → f.sel.getLsbD 0 = false →
            (t.th m).st = .halted ∧ (t.th m).pc = (s.th m).pc ∧ (t.th m).halt = none ∧ (t.th m).keepsRegs (s.th m))) ∧
      (∀ f, Solo (.tlbi f) s g op b tid → Leads (exec (.tlbi f) s) fun t =>
        Went s t g tid ∧ Steady s t tid ∧ SlotOnly { s with tlb := t.tlb } t ∧
        ∀ e, e ∈ t.tlb ↔ e ∈ s.tlb ∧ match f.mod.toNat with
          | 0 => ¬(e.asid = (s.cx (s.cidOf tid)).asid ∧
              ((s.th tid).val64 f.a).toNat % 2 ^ 56 / psBytes (ptePs e.pte) * psBytes (ptePs e.pte) = e.va)
          | 1 => e.asid ≠ (s.cx (s.cidOf tid)).asid
          | _ => False))

/-! ### Power words -/

/-- An intent that is own and neither ended nor withdrawn. -/
def ownIntents (s : State) : Nat := ((s.pow.intents.filter fun i => decide (s.pow.k < i.n + i.d)).filter (·.own)).length

/-- R343: `INTENT` of 0 W posts nothing and writes 0; with 16 of its own outstanding it writes 2; else it posts an intent of ceil(b / d) W at its
start, which lies `ILEAD` or more ahead, and writes 0, 1 when the start was moved, or 3 without a power group.  R344: `BALLAST` puts a range of
lines in the prefetch or scrub queue of the core's die and writes 0, or writes 1 when that queue is full; its cancel form takes the context's
hints out and writes their number. -/
def Obligations.PowerWords : Prop :=
  (∀ f s g op b tid, Solo (.intent f) s g op b tid → ∀ a, a = ((s.th tid).val f.a).toNat →
      ((s.th tid).val f.b = 0 → Leads (exec (.intent f) s) fun t => ReadsInto s t g tid f.d [0]) ∧
      ((s.th tid).val f.b ≠ 0 → 16 ≤ ownIntents s → Leads (exec (.intent f) s) fun t => ReadsInto s t g tid f.d [2]) ∧
      ((s.th tid).val f.b ≠ 0 → ownIntents s < 16 → Leads (exec (.intent f) s) fun t =>
        Went s t g tid ∧ MemSame s t ∧ (t.th tid).keepsBut (s.th tid) f.d 1 ∧ (t.th tid).quiet (s.th tid) ∧
        (t.th tid).gets f.d [if s.pow.gid = 0 then 3 else if a / 2 ^ 16 < s.pow.ilead then 1 else 0] ∧
        ∃ i, t.pow = { s.pow with intents := s.pow.intents ++ [i] } ∧ i.own = true ∧ i.n = s.pow.k + max (a / 2 ^ 16) s.pow.ilead ∧
          i.d = max 1 (a % 2 ^ 16) ∧ min 4000 ((s.th tid).val f.b).toNat ≤ i.rate * i.d ∧
          i.rate * i.d < min 4000 ((s.th tid).val f.b).toNat + i.d ∧ (i.adm = true ↔ s.pow.gid = 0))) ∧
  (∀ f s g op b tid d, Solo (.ballast f) s g op b tid → d = s.di (s.turn / 80) →
      let n := min ((s.th tid).val f.b).toNat (2 ^ 24)
      let a := ((s.th tid).val64 f.a).toNat % 2 ^ 56
      let r := (s.cidOf tid, a / 128, (a + n - 1) / 128 - a / 128 + 1)
      let out (t : State) (x : Word) : Prop :=
        Went s t g tid ∧ MemSame s t ∧ (t.th tid).gets f.d [x] ∧ (t.th tid).keepsBut (s.th tid) f.d 1 ∧ (t.th tid).quiet (s.th tid)
      (f.mod = 1 → Leads (exec (.ballast f) s) fun t =>
        out t (.ofNat 32 (d.hints.filter fun h => h.1 == s.cidOf tid).length) ∧
        t.di (s.turn / 80) = { d with hints := d.hints.filter fun h => h.1 != s.cidOf tid }) ∧
      (f.mod ≠ 1 → n = 0 → Leads (exec (.ballast f) s) fun t => out t 0 ∧ t.di (s.turn / 80) = d) ∧
      (f.mod = 0 → n ≠ 0 → Leads (exec (.ballast f) s) fun t =>
        if d.hints.length < 256 then out t 0 ∧ t.di (s.turn / 80) = { d with hints := d.hints ++ [r] } else out t 1 ∧ t.di (s.turn / 80) = d) ∧
      (f.mod ≠ 0 → f.mod ≠ 1 → n ≠ 0 → Leads (exec (.ballast f) s) fun t =>
        if d.scrubs.length < 64 then out t 0 ∧ t.di (s.turn / 80) = { d with scrubs := d.scrubs ++ [r] } else out t 1 ∧ t.di (s.turn / 80) = d))

/-! ### Truss words -/

/-- The engine whose turn it is runs the schedule of a slot. -/
abbrev TrussAt (s : State) (n : Nat) (x : TSlot) : Prop := s.slotOn s.eturn = some n ∧ s.sl n = x ∧ x.st = 4 ∧ x.wait = .none

/-- A word that changes its slot only. -/
def SlotIs (s t : State) (n : Nat) (y : TSlot) : Prop := t = { s with slot := t.slot } ∧ t.sl n = y ∧ ∀ m, m ≠ n → t.sl m = s.sl m

/-- A word that writes one register of its slot and goes on. -/
def SetsG (s t : State) (n : Nat) (x : TSlot) (d : BitVec 4) (v : DWord) : Prop :=
  ∃ gs, SlotIs s t n { x with g := gs, pc := x.pc + 1 } ∧ ∀ k, k < 16 → gs.getD k 0 = if k = d.toNat then v else x.g.getD k 0

/-- A slot has become Faulted for a reason. -/
def FaultedBy (t : State) (n reason : Nat) : Prop := (t.sl n).st = 7 ∧ (t.sl n).frsn = reason

/-- What `PARAM` reads at an index (R379). -/
def paramAt (s : State) (n : Nat) (x : TSlot) (i : Int) (v : DWord) : Prop :=
  (0 ≤ i ∧ i < 32 ∧ v = x.params.getD i.toNat 0) ∨ (i = 32 ∧ v = .ofNat 64 x.rank) ∨ (i = 33 ∧ v = .ofNat 64 x.size) ∨
  (i = 34 ∧ v = .ofNat 64 n) ∨ (i = 35 ∧ v = .ofNat 64 s.gdn) ∨ (i = 36 ∧ v = .ofNat 64 s.time)

/-- R379: each register word of a schedule gives its register the value of its rule, goes on, and changes nothing else; a `PARAM` of an index
below 0 or above 36 faults its slot with reason 1. -/
def Obligations.TrussRegisterWords : Prop :=
  ∀ s n x, TrussAt s n x →
    (∀ f, Leads (exec (.trussNop f) s) fun t => SlotIs s t n { x with pc := x.pc + 1 }) ∧
    (∀ f, Leads (exec (.trussMovi f) s) fun t => SetsG s t n x f.d (.ofInt 64 f.imm.toInt)) ∧
    (∀ f, Leads (exec (.trussAddi f) s) fun t => SetsG s t n x f.d (.ofInt 64 ((x.gr f.a).toInt + f.imm.toInt))) ∧
    (∀ f, Leads (exec (.trussAdd f) s) fun t => SetsG s t n x f.d (.ofInt 64 ((x.gr f.a).toInt + (x.gr f.b).toInt))) ∧
    (∀ f, Leads (exec (.trussMuli f) s) fun t => SetsG s t n x f.d (.ofInt 64 ((x.gr f.a).toInt * f.imm.toInt))) ∧
    (∀ f, 0 < x.size → x.size < 2 ^ 64 → Leads (exec (.trussPeer f) s) fun t => ∃ v : DWord, SetsG s t n x f.d v ∧
      (v.toNat : Int) = ((x.rank : Int) + (x.gr f.a).toInt + f.imm.toInt) % (x.size : Int)) ∧
    (∀ f, 0 ≤ f.imm.toInt → f.imm.toInt ≤ 36 → Leads (exec (.trussParam f) s) fun t =>
      ∃ v, SetsG s t n x f.d v ∧ paramAt s n x f.imm.toInt v) ∧
    (∀ f, f.imm.toInt < 0 ∨ 36 < f.imm.toInt → Leads (exec (.trussParam f) s) fun t => FaultedBy t n 1)

/-- R380, R381: each control word of a schedule gives its slot the PC of its rule, `LOOP` its counter, and `TRAP` the fault of reason 8; a PC past the
last word faults the slot with reason 1 when its engine's turn comes.  `CHUNK` sets its chunk, and nothing else. -/
def Obligations.TrussControlWords : Prop :=
  ∀ s n x, TrussAt s n x →
    (∀ rest, s.agenda = .engine s.eturn :: rest → s.mg.boot = .running → x.words.length ≤ x.pc → Leads (step s) fun t =>
      FaultedBy t n 1) ∧
    (∀ f (p : Nat), (p : Int) = x.pc + f.imm.toInt → Leads (exec (.trussBra f) s) fun t => SlotIs s t n { x with pc := p }) ∧
    (∀ f (p : Nat), (p : Int) = x.pc + f.imm.toInt → Leads (exec (.trussBnz f) s) fun t =>
      SlotIs s t n { x with pc := if x.gr f.a = 0 then x.pc + 1 else p }) ∧
    (∀ f (p : Nat), (p : Int) = x.pc + f.imm.toInt → Leads (exec (.trussLoop f) s) fun t =>
      ∃ gs, SlotIs s t n { x with g := gs, pc := if x.gr f.a = 1 then x.pc + 1 else p } ∧
        ∀ k, k < 16 → gs.getD k 0 = if k = f.a.toNat then x.gr f.a - 1 else x.g.getD k 0) ∧
    (∀ f, Leads (exec (.trussTrap f) s) fun t => FaultedBy t n 8 ∧ (t.sl n).trap = .ofInt 64 f.imm.toInt) ∧
    (∀ f, Leads (exec (.trussChunk f) s) fun t => ∃ cs, SlotIs s t n { x with chunks := cs, pc := x.pc + 1 } ∧
      ∀ c, Tbl.get {} cs c = if c = f.ca.toNat
        then { v := decide (0 < (x.gr f.rb).toNat ∧ (x.gr f.rb).toNat ≤ 2 ^ 32), win := f.xf.getLsbD 0, base := (x.gr f.ra).toNat % 2 ^ 56
               size := (x.gr f.rb).toNat, stride := (x.gr f.rp).toNat }
        else Tbl.get {} x.chunks c)

/-- An operation for a rank in another pod (R372, R373, R385): on its queue pair, with the rank's entry of the Ethernet peer table. -/
def ethTo (t : State) (n rank : Nat) (op : RoceOp) : EthOut :=
  let x := t.sl n
  let e := t.pkg.enptbase + 64 * (x.peer rank).2.2
  { slot := n, rank, qpn := 1024 * (x.peer rank).1 + x.rank, ip := t.rd e 16, mac := t.rd (e + 16) 6, port := t.rd (e + 22) 1 % 8
    vlan := t.rd (e + 24) 2, op }

/-- `SIG`'s and a data word's increment of a signal goes to a rank in another pod (R385, R386): an operation on the queue pair. -/
def sigOp (t : State) (x : TSlot) (rank sig count : Nat) (n : Nat) : EthOut := ethTo t n rank (.send sig count (x.edge % 2 ^ 48))

/-- A request of a slot to another device is outstanding (R353, R357). -/
def SlotAsked (t : State) (n gdn kind opx atype pa : Nat) (data : List Byte) : Prop :=
  ∃ r ∈ t.fab.out, r.owner = .slot n ∧ r.pk.dgdn = gdn ∧ r.pk.kind = kind ∧ r.pk.opx = opx ∧ r.pk.atype = atype ∧ r.pk.pa = pa ∧
    r.pk.data = data

/-- The address of signal k of slot p in the signal window (R386). -/
def signalPa (p k : Nat) : Nat := 768 * 2 ^ 30 + 0x10000000 + 0x80 * p + 8 * k

/-- R386, R387: `SIG` raises a signal of its rank: at once on this device, by a request of ATOM `.add.u64` to the signal window on another, by an
operation on the queue pair in another pod; `WAIT` takes its count and goes on, or waits; `BAR` of a communicator of one passes, and one of
more sends its first increment and waits (in which part of s15: log 46); `FIN` waits for the run's operations. -/
def Obligations.TrussSignalWords : Prop :=
  ∀ s n x, TrussAt s n x → x.todo = [] →
    (∀ f r, (x.gr f.a).toNat = r → r < x.size → 1 ≤ f.imm.toInt → f.imm.toInt < 2 ^ 32 →
      ((x.peer r).2.1 / 2 ^ 10 ≠ s.pkg.pod → Leads (exec (.trussSig f) s) fun t =>
        t.fab.eth = s.fab.eth ++ [sigOp t x r f.d.toNat f.imm.toInt.toNat n] ∧ (t.sl n).pc = x.pc + 1 ∧
        (t.sl n).ops.length = x.ops.length + 1) ∧
      ((x.peer r).2.1 / 2 ^ 10 = s.pkg.pod → (x.peer r).2.1 ≠ s.gdn → s.outTo (x.peer r).2.1 < 256 →
        Leads (exec (.trussSig f) s) fun t =>
          SlotAsked t n (x.peer r).2.1 4 3 3 (signalPa (x.peer r).1 f.d.toNat) (natLe 8 f.imm.toInt.toNat) ∧ (t.sl n).pc = x.pc + 1 ∧
          (t.sl n).ops.length = x.ops.length + 1) ∧
      ((x.peer r).2.1 = s.gdn → s.pkg.member < 2 ^ 10 → (x.peer r).1 < 64 → (x.peer r).1 ≠ n → 2 ≤ (s.sl (x.peer r).1).st →
        (s.sl (x.peer r).1).st ≠ 7 → (∃ c ∈ (s.sl (x.peer r).1).comm, c.2.1 = s.gdn) →
        s.frameMigrating (signalPa (x.peer r).1 f.d.toNat) = none →
        Leads (exec (.trussSig f) s) fun t =>
          (t.sl n).pc = x.pc + 1 ∧ (t.sl (x.peer r).1).sig.getD f.d.toNat 0 =
            min ((s.sl (x.peer r).1).sig.getD f.d.toNat 0 + f.imm.toInt.toNat) (2 ^ 32 - 1))) ∧
    (∀ f, f.imm.toInt < 1 ∨ 2 ^ 32 ≤ f.imm.toInt → Leads (exec (.trussSig f) s) fun t => FaultedBy t n 1) ∧
    (∀ f, x.size ≤ (x.gr f.a).toNat → 1 ≤ f.imm.toInt → f.imm.toInt < 2 ^ 32 → Leads (exec (.trussSig f) s) fun t => FaultedBy t n 2) ∧
    (∀ f (c : Nat), f.imm.toInt = (c : Int) → 1 ≤ c → c < 2 ^ 32 →
      (c ≤ x.sig.getD f.d.toNat 0 → Leads (exec (.trussWait f) s) fun t => ∃ sg, SlotIs s t n { x with sig := sg, pc := x.pc + 1 } ∧
        ∀ k, k < 16 → sg.getD k 0 = if k = f.d.toNat then x.sig.getD k 0 - c else x.sig.getD k 0) ∧
      (x.sig.getD f.d.toNat 0 < c → Leads (exec (.trussWait f) s) fun t =>
        SlotIs s t n { x with st := 5, wait := .signal f.d.toNat c, waitAt := s.time })) ∧
    (∀ f, f.imm.toInt < 1 ∨ 2 ^ 32 ≤ f.imm.toInt → Leads (exec (.trussWait f) s) fun t => FaultedBy t n 1) ∧
    (∀ f, x.size = 1 → Leads (exec (.trussBar f) s) fun t => SlotIs s t n { x with barn := x.barn + 1, pc := x.pc + 1 }) ∧
    (∀ f, 1 < x.size → x.size ≤ 1024 → x.sig.getD 15 0 % 8 = 0 → (x.peer ((x.rank + 1) % x.size)).2.1 / 2 ^ 10 ≠ s.pkg.pod →
      Leads (exec (.trussBar f) s) fun t =>
        t.fab.eth = s.fab.eth ++ [sigOp t x ((x.rank + 1) % x.size) 15 1 n] ∧ (t.sl n).pc = x.pc ∧ (t.sl n).st = 5 ∧ (t.sl n).wait = .bar 0) ∧
    (∀ f, Leads (exec (.trussFin f) s) fun t =>
      SlotIs s t n { x with wait := .fin (if f.imm.getLsbD 24 then some (f.imm.toNat % 2 ^ 24) else none) })

/-- The elements of a local piece lie at consecutive locations of memory, each reached by the engine through a translation that it holds, on a
page that is not Shadowed, or by an arrival on the live frames. -/
def PieceAt (s : State) (x : TSlot) (e va n loc : Nat) (rd wr : Bool) (live : Bool := false) : Prop :=
  s.inHst loc (n * e) = false ∧ ∀ k, k < n → ∃ y, s.engAcs x.cid x.die ((va + k * e) % 2 ^ 56) rd wr live = (.ok y (.loc (loc + k * e)), s) ∧
    (live = false → y.held.st ≠ 4) ∧ (rd = true → s.poisoned (loc + k * e) e = false)

/-- Piece k of a chunk begins at its base plus k strides (R381). -/
def pieceVa (x : TSlot) (c : Nat) (k : DWord) : Nat := ((x.chunk c).base + k.toNat * (x.chunk c).stride) % 2 ^ 56

/-- A chunk fits a word (R382): valid, local or window, its size, base and stride multiples of the element. -/
def chunkFits (x : TSlot) (c e : Nat) (win : Bool) : Prop :=
  (x.chunk c).v = true ∧ (x.chunk c).win = win ∧ (x.chunk c).size % e = 0 ∧ (x.chunk c).base % e = 0 ∧ (x.chunk c).stride % e = 0

/-- One element of `RED` (R384): the sum rounded to nearest, or the greater or smaller as `FMAX` and `FMIN` select it. -/
def redElem (f : TC) (a b : Nat) : Nat :=
  let m := ffmt (match f.xf.toNat with | 0 => .bf16 | 1 => .f16 | 2 => .f32 | _ => .f64)
  match f.xo.toNat with
  | 0 => m.ofFV .rne false (addSum .rne [m.val a, m.val b])
  | 1 => m.select true false a b
  | _ => m.select false false a b

/-- Bytes of an element of a reducing word (R377). -/
def redBytes (f : TC) : Nat := match f.xf.toNat with | 0 | 1 => 2 | 2 => 4 | _ => 8

/-- Two local chunks of a word fit, and its pieces lie in memory. -/
structure PiecesAt (s : State) (x : TSlot) (f : TC) (e la lb : Nat) (readB : Bool) : Prop where
  fits : chunkFits x f.ca.toNat e false ∧ chunkFits x f.cb.toNat e false ∧ (x.chunk f.ca.toNat).size = (x.chunk f.cb.toNat).size
  source : PieceAt s x e (pieceVa x f.ca.toNat (x.gr f.ra)) ((x.chunk f.ca.toNat).size / e) la true false
  target : PieceAt s x e (pieceVa x f.cb.toNat (x.gr f.rb)) ((x.chunk f.ca.toNat).size / e) lb false true
  old : readB = true → PieceAt s x e (pieceVa x f.cb.toNat (x.gr f.rb)) ((x.chunk f.ca.toNat).size / e) lb true false

/-- R382, R384, R385: `COPY` and `RED` write the copied or reduced elements into the piece of CB and go on; `SEND`, `REDSEND` and `RECV` with a rank
in another pod give the queue pair one WRITE and the signal after it, or one READ for which the schedule waits; `SEND` and `REDSEND` to another
device of the pod, within one block of 4,096 bytes, send one store and the signal, `RECV` of one unit from there sends one load, for which the
schedule waits, and `MCAST` to the one valid member of its group sends one store and one signal; to a group without one it faults with reason 7,
code 5 (R362, R388); a word whose chunks do not fit faults with reason 3, and one whose rank is none with reason 2. -/
def Obligations.TrussDataWords : Prop :=
  ∀ s n x, TrussAt s n x → x.todo = [] →
    (∀ f la lb, PiecesAt s x f 1 la lb false → Leads (exec (.trussCopy f) s) fun t =>
      (t.sl n) = { x with pc := x.pc + 1 } ∧ Holds t lb (s.bytes la (x.chunk f.ca.toNat).size) ∧
      MemBut s t lb (x.chunk f.ca.toNat).size) ∧
    (∀ f la lb, PiecesAt s x f (redBytes f) la lb true → Leads (exec (.trussRed f) s) fun t =>
      (t.sl n) = { x with pc := x.pc + 1 } ∧ MemBut s t lb (x.chunk f.ca.toNat).size ∧
      ∀ k, k < (x.chunk f.ca.toNat).size / redBytes f →
        t.rd (lb + k * redBytes f) (redBytes f) =
          redElem f (s.rd (la + k * redBytes f) (redBytes f)) (s.rd (lb + k * redBytes f) (redBytes f))) ∧
    (∀ f la lb r, PiecesAt s x f (redBytes f) la lb true → f.cb.toNat < 63 → chunkFits x (f.cb.toNat + 1) (redBytes f) true →
      (x.gr f.rp).toNat = r → r < x.size → (x.peer r).2.1 / 2 ^ 10 ≠ s.pkg.pod → Leads (exec (.trussRedsend f) s) fun t =>
        (t.sl n).pc = x.pc + 1 ∧ (t.sl n).st = 4 ∧ MemBut s t lb (x.chunk f.ca.toNat).size ∧
        (∀ k, k < (x.chunk f.ca.toNat).size / redBytes f →
          t.rd (lb + k * redBytes f) (redBytes f) =
            redElem f (s.rd (la + k * redBytes f) (redBytes f)) (s.rd (lb + k * redBytes f) (redBytes f))) ∧
        t.fab.eth = s.fab.eth ++ [ethTo t n r (.write (pieceVa x (f.cb.toNat + 1) (x.gr f.rb)) (redBytes f) (t.bytes lb (x.chunk f.ca.toNat).size)),
          sigOp t x r f.sg.toNat 1 n]) ∧
    (∀ f la r, chunkFits x f.ca.toNat 1 false → chunkFits x f.cb.toNat 1 true → (x.chunk f.ca.toNat).size = (x.chunk f.cb.toNat).size →
      PieceAt s x 1 (pieceVa x f.ca.toNat (x.gr f.ra)) (x.chunk f.ca.toNat).size la true false → (x.gr f.rp).toNat = r → r < x.size →
      ((x.peer r).2.1 / 2 ^ 10 ≠ s.pkg.pod → Leads (exec (.trussSend f) s) fun t =>
        (t.sl n).pc = x.pc + 1 ∧ MemSame s t ∧
        t.fab.eth = s.fab.eth ++ [ethTo t n r (.write (pieceVa x f.cb.toNat (x.gr f.rb)) 1 (s.bytes la (x.chunk f.ca.toNat).size)),
          sigOp t x r f.sg.toNat 1 n]) ∧
      (∀ pa va, va = pieceVa x f.cb.toNat (x.gr f.rb) → (x.peer r).2.1 / 2 ^ 10 = s.pkg.pod → (x.peer r).2.1 ≠ s.gdn →
        va % 4096 + (x.chunk f.ca.toNat).size ≤ 4096 → 0 < (x.chunk f.ca.toNat).size → s.outTo (x.peer r).2.1 < 255 → s.fab.out.length + 2 ≤ 2 ^ 16 →
        s.tWindow x.cid x.die va (x.peer r).2.1 false true = (.ok pa, s) → Leads (exec (.trussSend f) s) fun t =>
          (t.sl n).pc = x.pc + 1 ∧ MemSame s t ∧ (t.sl n).ops.length = x.ops.length + 2 ∧
          SlotAsked t n (x.peer r).2.1 2 0 0 pa (s.bytes la (x.chunk f.ca.toNat).size) ∧
          SlotAsked t n (x.peer r).2.1 4 3 3 (signalPa (x.peer r).1 f.sg.toNat) (natLe 8 1))) ∧
    (∀ f lb r, chunkFits x f.ca.toNat 1 true → chunkFits x f.cb.toNat 1 false → (x.chunk f.ca.toNat).size = (x.chunk f.cb.toNat).size →
      PieceAt s x 1 (pieceVa x f.cb.toNat (x.gr f.rb)) (x.chunk f.cb.toNat).size lb false true → (x.gr f.rp).toNat = r → r < x.size →
      (x.peer r).2.1 / 2 ^ 10 ≠ s.pkg.pod → Leads (exec (.trussRecv f) s) fun t =>
        MemSame s t ∧ (t.sl n).pc = x.pc ∧ (t.sl n).st = 5 ∧ (t.sl n).wait = .recv (pieceVa x f.cb.toNat (x.gr f.rb)) ∧
        t.fab.eth = s.fab.eth ++ [ethTo t n r (.read (pieceVa x f.ca.toNat (x.gr f.ra)) (x.chunk f.cb.toNat).size)]) ∧
    (∀ f lb r size pa va dst, chunkFits x f.ca.toNat 1 true → chunkFits x f.cb.toNat 1 false → (x.chunk f.ca.toNat).size = size →
      (x.chunk f.cb.toNat).size = size → size ∈ [1, 2, 4, 8, 16] → va = pieceVa x f.ca.toNat (x.gr f.ra) → va % size = 0 →
      dst = pieceVa x f.cb.toNat (x.gr f.rb) → dst % size = 0 → PieceAt s x 1 dst size lb false true → (x.gr f.rp).toNat = r → r < x.size →
      (x.peer r).2.1 / 2 ^ 10 = s.pkg.pod → (x.peer r).2.1 ≠ s.gdn → s.outTo (x.peer r).2.1 < 256 →
      s.tWindow x.cid x.die va (x.peer r).2.1 true false = (.ok pa, s) → Leads (exec (.trussRecv f) s) fun t =>
        MemSame s t ∧ (t.sl n).pc = x.pc ∧ (t.sl n).st = 5 ∧ (t.sl n).wait = .recv dst ∧
        ∃ w, 2 ^ w = size ∧ SlotAsked t n (x.peer r).2.1 0 w 0 pa []) ∧
    (∀ f la lb r size pa va, PiecesAt s x f (redBytes f) la lb true → f.cb.toNat < 63 → chunkFits x (f.cb.toNat + 1) (redBytes f) true →
      (x.gr f.rp).toNat = r → r < x.size → (x.peer r).2.1 / 2 ^ 10 = s.pkg.pod → (x.peer r).2.1 ≠ s.gdn → size = (x.chunk f.ca.toNat).size →
      va = pieceVa x (f.cb.toNat + 1) (x.gr f.rb) → va % 4096 + size ≤ 4096 → 0 < size → s.outTo (x.peer r).2.1 < 255 →
      s.fab.out.length + 2 ≤ 2 ^ 16 → s.tWindow x.cid x.die va (x.peer r).2.1 false true = (.ok pa, s) →
      Leads (exec (.trussRedsend f) s) fun t =>
        (t.sl n).pc = x.pc + 1 ∧ (t.sl n).st = 4 ∧ MemBut s t lb size ∧
        (∀ k, k < size / redBytes f → t.rd (lb + k * redBytes f) (redBytes f) =
          redElem f (s.rd (la + k * redBytes f) (redBytes f)) (s.rd (lb + k * redBytes f) (redBytes f))) ∧
        SlotAsked t n (x.peer r).2.1 2 0 0 pa (t.bytes lb size) ∧
        SlotAsked t n (x.peer r).2.1 4 3 3 (signalPa (x.peer r).1 f.sg.toNat) (natLe 8 1)) ∧
    (∀ f la grp off va, chunkFits x f.ca.toNat 1 false → chunkFits x f.cb.toNat 1 true →
      (x.chunk f.ca.toNat).size = (x.chunk f.cb.toNat).size → (x.chunk f.ca.toNat).size ∈ [1, 2, 4, 8, 16] →
      va = pieceVa x f.cb.toNat (x.gr f.rb) → va % (x.chunk f.ca.toNat).size = 0 →
      PieceAt s x 1 (pieceVa x f.ca.toNat (x.gr f.ra)) (x.chunk f.ca.toNat).size la true false → (x.gr f.rp).toNat = grp → grp < 4096 →
      s.mcMembers grp = [] → s.tMulti x.cid x.die va grp = (.ok off, s) →
      Leads (exec (.trussMcast f) s) fun t => FaultedBy t n 7 ∧ (t.sl n).nakc = 5) ∧
    (∀ f la grp off frame gdn m r va, chunkFits x f.ca.toNat 1 false → chunkFits x f.cb.toNat 1 true →
      (x.chunk f.ca.toNat).size = (x.chunk f.cb.toNat).size → (x.chunk f.ca.toNat).size ∈ [1, 2, 4, 8, 16] →
      va = pieceVa x f.cb.toNat (x.gr f.rb) → va % (x.chunk f.ca.toNat).size = 0 →
      PieceAt s x 1 (pieceVa x f.ca.toNat (x.gr f.ra)) (x.chunk f.ca.toNat).size la true false → (x.gr f.rp).toNat = grp → grp < 4096 →
      s.mcMembers grp = [(m, frame, gdn)] → gdn / 2 ^ 10 = s.pkg.pod → gdn ≠ s.gdn → x.rankOf gdn = some r →
      s.tMulti x.cid x.die va grp = (.ok off, s) → s.outTo gdn < 255 → s.fab.out.length + 2 ≤ 2 ^ 16 →
      Leads (exec (.trussMcast f) s) fun t =>
        (t.sl n).pc = x.pc + 1 ∧ MemSame s t ∧
        (∃ w, 2 ^ w = (x.chunk f.ca.toNat).size ∧
          SlotAsked t n gdn 5 w 0 (frame + off) (s.bytes la (x.chunk f.ca.toNat).size)) ∧
        SlotAsked t n gdn 4 3 3 (signalPa (x.peer r).1 f.sg.toNat) (natLe 8 1)) ∧
    (∀ f, (x.chunk f.ca.toNat).v = false →
      Leads (exec (.trussCopy f) s) (FaultedBy · n 3) ∧ Leads (exec (.trussRed f) s) (FaultedBy · n 3) ∧
      Leads (exec (.trussRedsend f) s) (FaultedBy · n 3) ∧ Leads (exec (.trussSend f) s) (FaultedBy · n 3) ∧
      Leads (exec (.trussRecv f) s) (FaultedBy · n 3) ∧ Leads (exec (.trussMcast f) s) (FaultedBy · n 3)) ∧
    (∀ f, x.size ≤ (x.gr f.rp).toNat → chunkFits x f.ca.toNat 1 false → chunkFits x f.cb.toNat 1 true →
      (x.chunk f.ca.toNat).size = (x.chunk f.cb.toNat).size → Leads (exec (.trussSend f) s) (FaultedBy · n 2))

/-! ### Contexts -/

/-- One context of a state is this one, and nothing else of the state differs. -/
def CtxIs (s t : State) (cid : Nat) (c : Ctx) : Prop := t = { s with ctx := t.ctx } ∧ t.cx cid = c ∧ ∀ k, k ≠ cid → t.cx k = s.cx k

/-- A context command is written by HS or M mode to the window of a context. -/
abbrev CommandAt (s : State) (cid : Nat) : Prop := whoHsm s.acc.who = true ∧ s.acc.idx % 256 = cid

/-- R22, R29, R30, R344 (from when a context that has never been Running waits: log 93): `CREATE`, `ENABLE`, `DISABLE` and `PREEMPT` move a context
between its states and end with `CSTAT` 0; in another state they change nothing and end with `CSTAT` 2; while a command is in progress every command
ends with `CSTAT` 1; a guest's is dropped and logged. -/
def Obligations.ContextCommands : Prop :=
  ∀ (s : State) (cid : Nat),
    (CommandAt s cid → (s.cx cid).cbusy = true →
      ∀ i ∈ [Instr.ctxCreate, .ctxBind, .ctxEnable, .ctxPreempt, .ctxDisable, .ctxUnbind, .ctxDestroy],
        Leads (exec i s) (CtxIs s · cid { s.cx cid with cstat := 1 })) ∧
    (CommandAt s cid → (s.cx cid).cbusy = false →
      ((s.cx cid).state = 0 → Leads (exec .ctxCreate s) fun t => CtxIs s t cid (t.cx cid) ∧ (t.cx cid).state = 1 ∧ (t.cx cid).cstat = 0 ∧
        (t.cx cid).func = 0 ∧ (t.cx cid).ptmo = 10 ∧ (t.cx cid).dies = 0 ∧ (t.cx cid).prio = 0 ∧ (t.cx cid).slice = 0 ∧ (t.cx cid).asid = 0 ∧
        (t.cx cid).root = 0 ∧ (t.cx cid).v = false ∧ (t.cx cid).himg = 0 ∧ (t.cx cid).savebase = 0 ∧ (t.cx cid).savelen = 0 ∧
        (t.cx cid).tmplbase = 0 ∧ (t.cx cid).tracebase = 0 ∧ (t.cx cid).faultq = 0 ∧ (t.cx cid).image = false ∧
        (t.cx cid).rrctl = (s.cx cid).rrctl) ∧
      ((s.cx cid).state ≠ 0 → Leads (exec .ctxCreate s) (CtxIs s · cid { s.cx cid with cstat := 2 })) ∧
      ((s.cx cid).state = 2 → Leads (exec .ctxEnable s)
        (CtxIs s · cid { s.cx cid with state := if (s.cx cid).image then 6 else 3, leftRun := some ((s.cx cid).leftRun.getD s.time),
                                        cstat := 0 })) ∧
      ((s.cx cid).state ≠ 2 → Leads (exec .ctxEnable s) (CtxIs s · cid { s.cx cid with cstat := 2 })) ∧
      ((s.cx cid).state ∈ [3, 6] → Leads (exec .ctxDisable s) (CtxIs s · cid { s.cx cid with state := 2, cstat := 0 })) ∧
      ((s.cx cid).state ∉ [3, 6] → Leads (exec .ctxDisable s) (CtxIs s · cid { s.cx cid with cstat := 2 })) ∧
      ((s.cx cid).state = 4 → Leads (exec .ctxPreempt s) fun t =>
        t = { s with ctx := t.ctx, thr := t.thr, die := t.die } ∧
        t.cx cid = { s.cx cid with state := 5, cbusy := true, cstat := 0, ptmoAt := s.time, why := 0 } ∧
        (∀ k, k ≠ cid → t.cx k = s.cx k) ∧ (∀ d, d < 4 → t.di d = { s.di d with hints := (s.di d).hints.filter fun h => h.1 != cid }) ∧
        ∀ m, t.th m = if m ∈ s.liveThreads cid then { s.th m with preempt := some 0, save := .none } else s.th m) ∧
      ((s.cx cid).state ∈ [3, 6] → Leads (exec .ctxPreempt s) (CtxIs s · cid { s.cx cid with cstat := 0 })) ∧
      ((s.cx cid).state ∉ [3, 4, 6] → Leads (exec .ctxPreempt s) (CtxIs s · cid { s.cx cid with cstat := 2 })) ∧
      ((s.cx cid).state ≠ 2 → Leads (exec .ctxUnbind s) (CtxIs s · cid { s.cx cid with cstat := 2 })) ∧
      ((s.cx cid).state ≠ 1 → Leads (exec .ctxBind s) (CtxIs s · cid { s.cx cid with cstat := 2 })) ∧
      ((s.cx cid).state = 0 → Leads (exec .ctxDestroy s) (CtxIs s · cid { s.cx cid with cstat := 2 }))) ∧
    (whoGuest s.acc.who = true → ∀ i ∈ [Instr.ctxCreate, .ctxBind, .ctxEnable, .ctxPreempt, .ctxDisable, .ctxUnbind, .ctxDestroy],
      exec i s = .next (s.ras 5 5 0 (ctxCtlAddr (s.acc.idx % 256))))

/-- R24, R30 to R32, R36: `BIND` decides its checks in order, and Binds a context whose image verifies, with `TVEC` at its entry; `UNBIND` gives
up a saved image; `DESTROY` ends the context's threads, grids, records and locks and leaves it Draining, and once no request of it is outstanding
it is Free; a `PTMO` that elapses makes it Faulted with cause 1. (Whether a signature verifies is a free value: log 13; details of `BIND`,
`UNBIND` and `DESTROY` that the spec leaves open: logs 39 to 41; that the page tables in memory stay as they are: log 73.) -/
def Obligations.BindAndDestroy : Prop :=
  ∀ (s : State) (cid : Nat) (c : Ctx), s.cx cid = c →
    (CommandAt s cid → c.cbusy = false → c.state = 1 →
      (c.dies ∉ layoutOf s.pkg.pmode → Leads (exec .ctxBind s) fun t => t.mg.firstBind = true ∧ t.cx cid = { c with cstat := 4 }) ∧
      (c.dies ∈ layoutOf s.pkg.pmode → c.v = false →
        Leads (exec .ctxBind s) fun t => t.mg.firstBind = true ∧ t.cx cid = { c with cstat := 5 }) ∧
      (c.dies ∈ layoutOf s.pkg.pmode → c.v = true → (∃ k, k ≠ cid ∧ 2 ≤ (s.cx k).state ∧ (s.cx k).asid = c.asid ∧ (s.cx k).root ≠ c.root) →
        Leads (exec .ctxBind s) fun t => t.mg.firstBind = true ∧ t.cx cid = { c with cstat := 5 }) ∧
      (c.dies ∈ layoutOf s.pkg.pmode → c.v = true → s.asidOk cid c = true → c.himg % 4096 ≠ 0 →
        Leads (exec .ctxBind s) fun t => t.mg.firstBind = true ∧ t.cx cid = { c with cstat := 6 }) ∧
      (c.dies ∈ layoutOf s.pkg.pmode → c.v = true → s.asidOk cid c = true → c.himg % 4096 = 0 → c.savebase % 4096 = 0 → c.tmplbase % 256 = 0 →
        c.tracebase % 4096 = 0 → c.faultq % 64 = 0 →
        (s.bindPins cid c = false → Leads (exec .ctxBind s) fun t => t.mg.firstBind = true ∧ t.cx cid = { c with cstat := 7 }) ∧
        (s.bindPins cid c = true → ∀ magic entry ilen off, s.imageHdr cid c.himg = some (magic, entry, ilen, off) →
          Leads (exec .ctxBind s) fun t => t.mg.firstBind = true ∧ MemSame s t ∧ (∀ k, k ≠ cid → t.cx k = s.cx k) ∧
            t.cx cid = if s.bindSig cid c = true then { s.bindLens cid c with state := 2, tvec := (c.himg + entry) % 2 ^ 56, cstat := 0 }
              else { c with cstat := 9 }))) ∧
    (CommandAt s cid → c.cbusy = false → c.state = 2 → Leads (exec .ctxUnbind s) fun t =>
      t.cx cid = { c with state := 1, image := false, cstat := 0 } ∧ (∀ k, k ≠ cid → t.cx k = s.cx k) ∧ MemSame s t ∧ t.thr = s.thr ∧
      ∀ x ∈ t.grid, ¬(x.2.live = true ∧ x.2.cid = cid ∧ x.2.saved = true)) ∧
    (CommandAt s cid → c.cbusy = false → c.state ≠ 0 → Leads (exec .ctxDestroy s) fun t =>
      (t.cx cid).state = 8 ∧ (t.cx cid).cbusy = true ∧ (t.cx cid).cstat = 0 ∧ (t.cx cid).image = false ∧
      (∀ x ∈ t.blk, x.2.live = true → (s.gr x.2.gid).cid ≠ cid) ∧ (∀ x ∈ t.grid, x.2.cid ≠ cid) ∧ (∀ p ∈ t.pkts, p.cid ≠ cid) ∧
      (∀ r ∈ t.recs, r.cid ≠ cid) ∧ (∀ l ∈ t.locks, l.cid ≠ cid) ∧ (∀ e ∈ t.splices, e.cid ≠ cid)) ∧
    (c.state = 8 → s.hasRequest cid = false → s.pkg.reset ≠ some (5, c.func) → Leads (exec (.destroyDrainComplete cid) s) fun t =>
      t.cx cid = { c with state := 0, cbusy := false, fcause := 0 } ∧ (∀ k, k ≠ cid → t.cx k = s.cx k) ∧
      ∀ x ∈ t.held, x.1 / 2 ^ 40 = c.asid → x.2.st = 4 → x.2.written = []) ∧
    (c.state = 5 → c.ptmoAt + max 1 c.ptmo * 10000 ≤ s.time → c.dies % 16 ≠ 0 → Leads (exec (.ptmoExpire cid) s) fun t =>
      (t.cx cid).state = 7 ∧ (t.cx cid).fcause = 1 ∧ (t.cx cid).cstat = 8 ∧ (t.cx cid).cbusy = false ∧
      ∀ x ∈ t.blk, x.2.live = true → inMask c.dies (coreDie x.2.core) = false)

/-- A block as placement makes it (R96, R98, R304). -/
def PlacedBlock (t : State) (g : Grid) (gid bid core rank : Nat) (peers : List Nat) : Prop :=
  (t.bk bid).live = true ∧ (t.bk bid).core = core ∧ (t.bk bid).gid = gid ∧ (t.bk bid).crank = rank ∧ (t.bk bid).peers = peers ∧
  (t.bk bid).done = false ∧ (t.bk bid).placed = t.time ∧
  ∀ k, k < g.slots → k < 1024 → (g.node = none → (t.th (1024 * bid + k)).st = .ready) ∧ (t.th (1024 * bid + k)).pc = mkPc g.entry 0 ∧ (t.th (1024 * bid + k)).regs = List.replicate g.regs 0 ∧
    (t.th (1024 * bid + k)).lvl = .u ∧ (t.th (1024 * bid + k)).inh = false ∧ (t.th (1024 * bid + k)).flags = List.replicate 12 0 ∧
    (t.th (1024 * bid + k)).helper = decide (g.bdx * g.bdy * g.bdz ≤ k)

/-- R29, R33, R101, R304: the lead CP places the next block or block cluster of the grid that the arbiter serves, of the Running context or of the
one chosen, which a first placement makes Running; a demand of higher priority pre-empts the Running context, and so does an equal one once the
slice is over, which otherwise begins again. (That a slice begins again when only lower priority waits is the model's reading: log 38; where a
block's scratchpad lies: log 32.) -/
def Obligations.ContextSchedule : Prop :=
  ∀ (s s1 : State) (cid dies gid : Nat) (cores : List Nat) (g : Grid),
    (s.ctxOn dies (fun st => st == 4 || st == 5) = none → s.chosen dies = some cid → (s.cx cid).dies = dies → (s.cx cid).state = 3 →
      s.nextGrid cid = some (gid, s1) → s.gr gid = g → g.cid = cid → s1.pickCores g = some cores →
      ∀ i ∈ [Instr.ctxDispatch dies, .blockPlace gid], Leads (exec i s) fun t =>
        t.cx cid = { s.cx cid with state := 4, sliceAt := s.time } ∧ t.gr gid = { g with next := g.next + g.csize } ∧
        t.blkCtr = s.blkCtr + g.csize ∧
        ∀ k core, k < g.csize → cores[k]? = some core →
          PlacedBlock t g gid (s.blkCtr + k) core k ((upto g.csize).map (s.blkCtr + ·))) ∧
    (s.ctxOn dies (fun st => st == 4 || st == 5) = some cid → (s.cx cid).dies = dies → (s.cx cid).state = 4 →
      s.nextGrid cid = some (gid, s1) → s.gr gid = g → g.cid = cid → s1.pickCores g = some cores →
      Leads (exec (.blockPlace gid) s) fun t =>
        t.cx cid = s.cx cid ∧ t.gr gid = { g with next := g.next + g.csize } ∧
        ∀ k core, k < g.csize → cores[k]? = some core →
          PlacedBlock t g gid (s.blkCtr + k) core k ((upto g.csize).map (s.blkCtr + ·))) ∧
    (∀ r, s.ctxOn dies (fun st => st == 4 || st == 5) = some r → s.chosen dies = some cid → (s.cx r).state = 4 →
      (s.cx r).prio < (s.cx cid).prio → Leads (exec (.ctxDispatch dies) s) fun t =>
        t.cx r = { s.cx r with state := 5, cbusy := true, ptmoAt := s.time, why := 2 } ∧ MemSame s t ∧ t.blk = s.blk) ∧
    (∀ c, s.cx cid = c → c.state = 4 → c.slice ≠ 0 → c.sliceAt + c.slice * 1000 ≤ s.time →
      (∀ o, s.chosen c.dies = some o → (s.cx o).prio = c.prio → Leads (exec (.sliceExpire cid) s) fun t =>
        t.cx cid = { c with state := 5, cbusy := true, ptmoAt := s.time, why := 1 } ∧ MemSame s t ∧ t.blk = s.blk) ∧
      (s.chosen c.dies = none → Leads (exec (.sliceExpire cid) s) (CtxIs s · cid { c with sliceAt := s.time })))

/-- The words of a save's area header and grid records written at their place (R40, R41), after the scratchpad images, which stand as the cancelled
transfers of Faulted channels leave them (R34, R281). -/
def savedTo (s : State) (cid : Nat) : Option State :=
  let c := s.cx cid
  let gs := s.savedGrids cid
  let total := 256 + 64 * gs.length + ((s.blocksOf cid).map fun x => (s.gr x.2.gid).recLen).sum
  (((s.cancelAll cid).saveSpads cid (c.savebase + 256 + 64 * gs.length) (s.blocksOf cid)).bind fun s =>
    s.hwWords cid (c.savebase + 256) (gs.flatMap fun g => (s.gr g).saveWords)).bind fun s =>
      s.hwWords cid c.savebase (saveHeader cid total (s.blocksOf cid).length gs.length c.why (c.seq + 1))

/-- R34, R36, R37: a save completes once every thread of the context is saved: its blocks leave their cores, and it is Saved and holds an image;
one whose area is too short, or cannot be written, makes the context Faulted with cause 3; a restore places the saved blocks and makes the context
Running. (The order of records, and cause 3 for an area that cannot be written, are the model's readings: log 40.) -/
def Obligations.SaveAndRestore : Prop :=
  ∀ (s : State) (cid : Nat) (c : Ctx), s.cx cid = c →
    (c.state = 5 → s.saveReady cid = true →
      256 + 64 * (s.savedGrids cid).length + ((s.blocksOf cid).map fun x => (s.gr x.2.gid).recLen).sum ≤ c.savelen →
      (∀ s1, savedTo s cid = some s1 → Leads (exec (.saveComplete cid) s) fun t =>
        (t.cx cid).state = 6 ∧ (t.cx cid).image = true ∧ (t.cx cid).cbusy = false ∧ (t.cx cid).seq = c.seq + 1 ∧ (t.cx cid).leftRun = some s.time ∧
        (∀ x ∈ t.blk, x.2.live = true → (s.gr x.2.gid).cid ≠ cid) ∧ ∀ g ∈ s.savedGrids cid, (t.gr g).saved = true) ∧
      (savedTo s cid = none → c.dies % 16 ≠ 0 → Leads (exec (.saveComplete cid) s) fun t => (t.cx cid).state = 7 ∧ (t.cx cid).fcause = 3)) ∧
    (c.state = 5 → s.saveReady cid = true → c.dies % 16 ≠ 0 →
      c.savelen < 256 + 64 * (s.savedGrids cid).length + ((s.blocksOf cid).map fun x => (s.gr x.2.gid).recLen).sum →
      Leads (exec (.saveComplete cid) s) fun t => (t.cx cid).state = 7 ∧ (t.cx cid).fcause = 3) ∧
    (∀ bs s1, c.state = 6 → s.ctxOn c.dies (fun st => st == 4 || st == 5) = none → s.chosen c.dies = some cid → s.readSave cid = some bs →
      s.putAll cid bs.length bs = some s1 →
      ∀ i ∈ [Instr.ctxRestore cid, .ctxDispatch c.dies], Leads (exec i s) fun t =>
        t.cx cid = { c with state := 4, image := false, sliceAt := s.time } ∧ (∀ x ∈ t.grid, x.2.cid = cid → x.2.saved = false) ∧
        t.blk = s1.blk ∧ t.thr = s1.thr ∧ t.mem = s1.mem) ∧
    (∀ (g : Grid) (b k w0 w1 : Nat) (u : Thr), u = s.restored g b k (w0, w1) →
      (w1.testBit 3 = true → u.st = .never) ∧ (w1.testBit 3 = false → w1.testBit 2 = true → u.st = .exited) ∧
      (w1.testBit 3 = false → w1.testBit 2 = false → u.st = .entering ∧ u.tcode = 0x16 ∧ u.tpc = .ofNat 64 w0 ∧ u.inh = true ∧
        (u.tspl, u.tkid, u.topc) = s.originalIn g (.ofNat 64 w0) ∧ u.tval = if w1.testBit 0 = true then 3 else 2))

/-- A thread may take a posted halt or PREEMPT where it stands (R116): between clauses with a header that can be fetched and passes its checks, and
no error that it raises there first; or Blocked, Fault-stalled or Halted. -/
def AtBoundary (s : State) (tid : Nat) : Prop :=
  (s.th tid).st ≠ .ready ∨
    ((∃ h, s.header tid = (.ok h, s)) ∧ (pcSlot (s.th tid).pc = 0 → (s.th tid).dueErrs = []))

/-- R34, R38, R110, R115 to R117, R193, R320: an entering thread whose flags are zero goes to its handler at level S, and the first fault at a word
of spliced code writes the grid's map (what a fault is there: log 99); a thread that is ready for its posted halt stops, or traps with HALT; one
that is ready for PREEMPT traps with it; one whose `STEP1` slot has trapped stops after its return, as for a posted stop (R390; log 72); a header
that fails its checks is taken before either; a `SLEEP` whose time is over goes on, at the slot after it (log 76). -/
def Obligations.ThreadEvents : Prop :=
  ∀ (s : State) (tid : Nat) (x : Thr), s.th tid = x →
    (x.st = .entering → (∀ k ∈ x.flags, k = 0) →
      let entered : Thr := { x with st := .ready, lvl := .s, pc := mkPc (s.cx (s.cidOf tid)).tvec 0
                                    errs := x.errs.map fun e => { e with outer := true } }
      let maps := x.tspl = true ∧ x.tcode < 0x14 ∧ (s.gridOf tid).mapOut = false
      (¬maps → Leads (exec (.handlerEnter tid) s) fun t =>
        t = { s with thr := t.thr } ∧ (∀ m, m ≠ tid → t.th m = s.th m) ∧ t.th tid = entered) ∧
      (maps → Leads (exec (.handlerEnter tid) s) fun t => ∃ u, u = s.writeMap (s.blkOf tid).gid ∧
        t = { u with thr := t.thr } ∧ (∀ m, m ≠ tid → t.th m = s.th m) ∧ t.th tid = entered)) ∧
    (s.haltReady tid = true → AtBoundary s tid → x.halt = some false ∨ x.stepDue = true → Leads (exec (.haltTake tid) s) fun t =>
      SlotOnly s t ∧ (∀ m, m ≠ tid → t.th m = s.th m) ∧ (t.th tid).st = .halted ∧ (t.th tid).halt = none ∧ (t.th tid).pc = x.pc ∧
      (t.th tid).keepsRegs x ∧ (t.th tid).quiet x) ∧
    (s.haltReady tid = true → AtBoundary s tid → x.halt = some true → x.stepDue = false → Leads (exec (.haltTake tid) s) fun t =>
      t = { s with thr := t.thr } ∧ (∀ m, m ≠ tid → t.th m = s.th m) ∧ Trapped x (t.th tid) (s.original tid x.pc) 0x17 0 x.pc) ∧
    (∀ v, s.resident tid = true → s.preemptReady tid = true → AtBoundary s tid → x.preempt = some v →
      Leads (exec (.preemptTake tid) s) fun t =>
        t = { s with thr := t.thr } ∧ (∀ m, m ≠ tid → t.th m = s.th m) ∧
        Trapped x (t.th tid) (s.original tid x.pc) 0x16 (.ofNat 64 (v ||| (x.st == .halted).toNat)) x.pc ∧ (t.th tid).preempt = none ∧
        (t.th tid).hlt = (x.st == .halted) ∧ (t.th tid).save = .inHandler) ∧
    (∀ c v p, s.resident tid = true → x.st = .ready → s.header tid = (.cause (c, v) p, s) →
      (s.haltReady tid = true → Leads (exec (.haltTake tid) s) fun t => SlotOnly s t ∧ (∀ m, m ≠ tid → t.th m = s.th m) ∧
        Trapped x (t.th tid) (s.original tid p) c (s.origTval tid c v p) p) ∧
      (s.preemptReady tid = true → Leads (exec (.preemptTake tid) s) fun t => SlotOnly s t ∧ (∀ m, m ≠ tid → t.th m = s.th m) ∧
        Trapped x (t.th tid) (s.original tid p) c (s.origTval tid c v p) p)) ∧
    (∀ n next, x.st = .blocked → x.wait = .sleep n next → n ≤ s.time → Leads (exec (.sleepWake tid) s) fun t =>
      t = { s with thr := t.thr } ∧ (∀ m, m ≠ tid → t.th m = s.th m) ∧ (t.th tid).st = .ready ∧ (t.th tid).wait = .none ∧
      (t.th tid).pc = next ∧ (t.th tid).keepsRegs x ∧ (t.th tid).quiet x) ∧
    (∀ n next, x.st = .blocked → x.wait = .sleep n next → s.time < n → exec (.sleepWake tid) s = .next s)

/-! ### Queues and resets -/

/-- Where a queue's fields lie in its descriptor is no place of the held-state table (R255). -/
abbrev DescFree (s : State) (q : Nat) : Prop := s.inHst (s.qdesc q + 8) 48 = false

/-- The fields of a queue fit their places in its descriptor (R45). -/
def Fits (h : QHeld) : Prop :=
  h.widx < 2 ^ 32 ∧ h.ridx < 2 ^ 32 ∧ h.cid < 2 ^ 8 ∧ h.pcls < 2 ^ 4 ∧ h.weight < 2 ^ 16 ∧ -2 ^ 63 ≤ h.deficit ∧ h.deficit < 2 ^ 63 ∧
  h.wakea < 2 ^ 56 ∧ h.wakev < 2 ^ 64 ∧ h.die < 4 ∧ h.thr < 32

/-- A queue's fields as its fault leaves them (R49): unmapped, `QST` Faulted, `QFC` the code, and `FIDX` its `RIDX`. -/
def faulted (h : QHeld) (code : Nat) : QHeld := { h with mapped := false, qst := 5, qfc := code, fidx := h.ridx }

/-- The words of the ring status block that a queue's fault writes (R46, R49), where they can be written, lie outside its descriptor. -/
def RingApart (s : State) (q code : Nat) : Prop :=
  let h := s.qv q
  let u := (s.unload q).qput q (faulted h code)
  let v := (u.ringStatus q 0 h.ridx).getD u
  let apart (l : Nat) : Prop := l + 8 ≤ s.qdesc q + 8 ∨ s.qdesc q + 56 ≤ l
  (∀ l, (u.hwLoc h.cid (u.ringEnd q % 2 ^ 56) true).1 = some l → apart l) ∧
  ∀ l, (v.hwLoc h.cid ((v.ringEnd q + 8) % 2 ^ 56) true).1 = some l → apart l

/-- A queue has become Faulted with a code, where its descriptor can tell. -/
def QFaulted (s t : State) (q code : Nat) : Prop :=
  (Tbl.get {} t.q q).mapped = false ∧ (DescFree s q → Fits (s.qv q) → RingApart s q code → t.qv q = faulted (s.qv q) code)

/-- R47 to R49, R58, R60: `ENABLE` makes a Disabled queue Idle, and changes nothing in another state, and `DISABLE` one Disabled, at once when no CP
thread holds it and otherwise by its unmapping, until which its status is BUSY; a queue or context in another state gives BADSTATE, and a queue
whose `DISABLE` is in progress BUSY; a free slot maps the best candidate; an unmapping goes through Unmapping and then writes the queue's fields
back to its descriptor; a doorbell moves `WIDX`, is ignored for a Disabled or Faulted queue, faults a queue whose ring it overruns, or one behind
whose `WIDX` it lies, with code BADIDX, and is latched in `WIDX` while a reset affects the queue's context. (That an unmapping takes two steps is
the model's: log 42; a ring of an `SZ` outside 4 to 16: log 83.) -/
def Obligations.QueueCommands : Prop :=
  ∀ (s : State) (who : Who) (q : Nat) (h : QHeld), q < 4096 → s.qv q = h →
    (whoHsm who = true → s.disabling q = false →
      (h.mapped = false → h.qst = 0 → 2 ≤ (s.cx h.cid).state → (s.cx h.cid).state ≤ 6 → DescFree s q →
        Leads (exec (.queueEnable who q) s) fun t =>
          t.pkg.qcmdStat = 0 ∧ t.qv q = { h with qst := 1, since := s.time } ∧ MemBut s t (s.qdesc q + 8) 48 ∧ t.ctx = s.ctx ∧ t.thr = s.thr) ∧
      (h.qst = 0 → ((s.cx h.cid).state < 2 ∨ 6 < (s.cx h.cid).state) →
        exec (.queueEnable who q) s = .next { s with pkg := { s.pkg with qcmdStat := 2 } }) ∧
      (h.qst ≠ 0 → exec (.queueEnable who q) s = .next { s with pkg := { s.pkg with qcmdStat := 0 } }) ∧
      (h.mapped = false → h.qst = 1 → DescFree s q → Leads (exec (.queueDisable who q) s) fun t =>
        t.pkg.qcmdStat = 0 ∧ t.qv q = { h with qst := 0 } ∧ MemBut s t (s.qdesc q + 8) 48 ∧ t.ctx = s.ctx ∧ t.thr = s.thr) ∧
      (h.qst = 0 → exec (.queueDisable who q) s = .next { s with pkg := { s.pkg with qcmdStat := 0 } }) ∧
      (h.mapped = true → h.qst ∈ [2, 3] → Leads (exec (.queueDisable who q) s) fun t =>
        t.pkg.qcmdStat = 1 ∧ t.qv q = { h with qst := 4 } ∧ MemSame s t ∧ t.agenda = s.agenda ++ [.event (.queueUnmap q true)]) ∧
      (h.qst = 5 → exec (.queueDisable who q) s = .next { s with pkg := { s.pkg with qcmdStat := 2 } })) ∧
    (whoHsm who = true → s.disabling q = true → ∀ i ∈ [Instr.queueEnable who q, .queueDisable who q, .resetQueue who true q],
      exec i s = .next { s with pkg := { s.pkg with qcmdStat := 1 } }) ∧
    (∀ die thr, s.slotFree die thr = true → s.bestCandidate die = some q → h.wakea = 0 → Leads (exec (.queueMap q die thr) s) fun t =>
      t.qv q = { h with mapped := true, die, thr, wp := false, qst := 2, since := s.time, edge := s.gdn * 2 ^ 28 + die * 2 ^ 26 } ∧
      MemBut s t (s.qdesc q + 0x30) 8 ∧ t.ctx = s.ctx ∧ t.thr = s.thr) ∧
    (∀ d, h.mapped = true → h.qst = 4 → DescFree s q → Leads (exec (.queueUnmap q d) s) fun t =>
      (Tbl.get {} t.q q).mapped = false ∧ (d = true ∨ s.disabling q = true → t.pkg.qcmdStat = 0) ∧ MemBut s t (s.qdesc q + 8) 48 ∧
      Holds t (s.qdesc q + 8)
        (({ h with mapped := false, qst := if d || s.disabling q then 0 else 1, wp := h.wp || (Tbl.get {} s.watch q).hit } : QHeld).words.flatMap
          (natLe 8 ·))) ∧
    (h.mapped = true → h.qst ≠ 4 → s.mayEvict q = true → Leads (exec (.queueUnmap q false) s) fun t =>
      t.qv q = { h with qst := 4 } ∧ MemSame s t ∧ t.agenda = s.agenda ++ [.event (.queueUnmap q false)]) ∧
    (∀ v, s.resetHits h.cid = false → h.qst = 0 ∨ h.qst = 5 → exec (.doorbellWrite who q v) s = .next s) ∧
    (∀ (v : DWord), s.resetHits h.cid = true → h.mapped = true ∨ DescFree s q → Leads (exec (.doorbellWrite who q v) s) fun t =>
      t.qv q = { h with widx := v.toNat % 2 ^ 32 } ∧ MemBut s t (s.qdesc q + 8) 48 ∧ t.ctx = s.ctx ∧ t.thr = s.thr) ∧
    (∀ (v : DWord) (w : Nat), v.toNat % 2 ^ 32 = w → s.resetHits h.cid = false → h.qst ≠ 0 → h.qst ≠ 5 → h.mapped = true ∨ DescFree s q →
      (w + 2 ^ 32 - h.ridx) % 2 ^ 32 ≤ 2 ^ s.qsz q → (h.widx + 2 ^ 32 - h.ridx) % 2 ^ 32 ≤ (w + 2 ^ 32 - h.ridx) % 2 ^ 32 →
      Leads (exec (.doorbellWrite who q v) s) fun t =>
        t.qv q = { h with widx := w, wp := h.wp || h.qst == 4, since := if h.widx = h.ridx then s.time else h.since } ∧
        MemBut s t (s.qdesc q + 8) 48 ∧ t.ctx = s.ctx ∧ t.thr = s.thr) ∧
    (∀ (v : DWord) (w : Nat), v.toNat % 2 ^ 32 = w → s.resetHits h.cid = false → h.qst ≠ 0 → h.qst ≠ 5 →
      2 ^ s.qsz q < (w + 2 ^ 32 - h.ridx) % 2 ^ 32 ∨ (w + 2 ^ 32 - h.ridx) % 2 ^ 32 < (h.widx + 2 ^ 32 - h.ridx) % 2 ^ 32 →
      Leads (exec (.doorbellWrite who q v) s) fun t => QFaulted s t q 3 ∧ t.ctx = s.ctx ∧ t.thr = s.thr)

/-- A frame that MACsec lets pass, addressed to `INGPORT` (R65, R368). -/
abbrev Frame (s : State) (w : Wire) : Prop := w.auth = true ∧ w.len ≤ 9216 ∧ w.udp = s.pkg.ingport

/-- What a frame for a queue opens to (R65). -/
def opens (s : State) (q n : Nat) (bs : List Byte) : Option (List Byte) :=
  Config.gcmOpen (Tbl.get [0, 0, 0, 0] s.pkg.ingKeys q) ((bs.drop 4).take 4 ++ (bs.drop 8).take 8) (bs.take 16) ((bs.drop 16).take (64 * n))
    (bs.drop (16 + 64 * n))

/-- The next `n` slots of a queue's ring stand, 8 bytes at a time, at locations that the hardware reaches through translations that it holds, on pages
that do not migrate, apart from each other and from the queue's descriptor. -/
structure RingAt (s : State) (q n : Nat) (h : QHeld) (loc : Nat → Nat) : Prop where
  reached : ∀ k, k < 8 * n → s.hwLoc h.cid ((s.ringVa q (h.widx + k / 8) + 8 * (k % 8)) % 2 ^ 56) true = (some (loc k), s)
  still : ∀ k, k < 8 * n → s.hwWaits h.cid ((s.ringVa q (h.widx + k / 8) + 8 * (k % 8)) % 2 ^ 56) = none ∧ s.inHst (loc k) 8 = false
  apart : ∀ j k, j < 8 * n → k < 8 * n → j ≠ k → loc j + 8 ≤ loc k ∨ loc k + 8 ≤ loc j
  outside : ∀ k, k < 8 * n → loc k + 8 ≤ s.qdesc q ∨ s.qdesc q + 64 ≤ loc k
  clean : s.tags = [] ∧ s.inHst (s.qdesc q + 0x38) 8 = false

/-- An accepted frame (R66): the ring holds its packets, `ISEQ` its number, and `WIDX` has moved past them; no other byte but the queue's fields
differs. -/
structure Accepted (s t : State) (q n isq : Nat) (h : QHeld) (text : List Byte) (loc : Nat → Nat) : Prop where
  ring : ∀ k, k < 8 * n → Holds t (loc k) ((text.drop (8 * k)).take 8)
  number : t.rd (s.qdesc q + 0x38) 8 = 2 ^ 63 + isq % 2 ^ 63
  index : t.qv q = { h with widx := (h.widx + n) % 2 ^ 32, wp := h.wp || h.qst == 4, since := if h.widx = h.ridx then s.time else h.since }
  rest : ∀ a, (∀ k, k < 8 * n → ¬(loc k ≤ a ∧ a < loc k + 8)) → ¬(s.qdesc q ≤ a ∧ a < s.qdesc q + 64) → t.byte a = s.byte a

/-- R55, R60, R65, R66, R368: a queue Blocked in `WAIT` reads its signal again when its watch wakes it: it goes on when the value is reached and
waits on when it is not, or sends its read over the fabric for a signal at another device; a wake for a queue that no thread serves is latched in
`WP`. A frame that MACsec does not let pass is counted at its port, and one for another port is no command frame. A command frame of another form,
for a queue without ingress, that does not open, or that repeats or overruns is counted and dropped; an accepted one goes to the ring; one whose
ring is on a Migrating page waits with it. (Whether a frame opens is a free value: log 13; the wake and the read of a signal at another device: log
43; `ISQ` of 2^63 or above: log 85.) R349, R350, R352, R353: a link whose far end is its port's neighbour is Up and another Miswired, the third
failure in a row makes it Failed; loss of signal retrains it; a flit counts and joins its packet, which arrives with its last flit, or is dropped
and counted when its kind is reserved; a refused flit is a replay, and the sixteenth in a millisecond retrains the link. (Failed training of a link
that was Up: log 55; which replays count: log 107.) -/
def Obligations.WakesAndFrames : Prop :=
  ∀ (s s1 : State),
    (∀ (q loc v : Nat) (h : QHeld), s.qv q = h → h.mapped = true → h.qst = 3 →
      ((Tbl.get {} s.watch q).hit = true ∨ (Tbl.get {} s.watch q).armed = false ∨ (Tbl.get {} s.watch q).far ≠ none) →
      s.sigWaits q = false → s.sigRead q h.cid h.wakea = (.val loc v, s1) →
      (h.wakev ≤ v → Leads (exec (.watchWake q) s) fun t =>
        t.qv q = { h with qst := 2, wakea := 0, edge := s.gdn * 2 ^ 28 + h.die * 2 ^ 26 + (s.di h.die).edgeCtr } ∧
        (Tbl.get {} t.watch q).armed = false) ∧
      (v < h.wakev → Leads (exec (.watchWake q) s) fun t =>
        t.qv q = h ∧ MemSame s t ∧ (Tbl.get {} t.watch q).armed = true ∧ (Tbl.get {} t.watch q).loc = loc ∧
        (Tbl.get {} t.watch q).hit = false)) ∧
    (∀ (q g pa : Nat) (h : QHeld), s.qv q = h → h.mapped = true → h.qst = 3 →
      ((Tbl.get {} s.watch q).hit = true ∨ (Tbl.get {} s.watch q).armed = false ∨ (Tbl.get {} s.watch q).far ≠ none) →
      s.sigWaits q = false → s.sigRead q h.cid h.wakea = (.fabric g pa, s1) → Leads (exec (.watchWake q) s) fun t =>
        t.qv q = h ∧ (Tbl.get {} t.watch q).armed = true ∧ (Tbl.get {} t.watch q).loc = pa ∧ (Tbl.get {} t.watch q).far = some g) ∧
    (∀ q, (s.qv q).mapped = false → (s.qv q).wakea ≠ 0 → ((Tbl.get {} s.watch q).hit = true ∨ (Tbl.get {} s.watch q).far ≠ none) → DescFree s q →
      Leads (exec (.watchWake q) s) fun t => t.qv q = { s.qv q with wp := true } ∧ MemBut s t (s.qdesc q + 8) 48) ∧
    (∀ (w : Wire) (bs : List Byte), w.auth = false → exec (.commandFrame ⟨w, bs⟩) s = .next { s with pkg := { s.pkg with
      macbad := Tbl.set 0 s.pkg.macbad (w.port % 8) (Tbl.get 0 s.pkg.macbad (w.port % 8) + 1) } }) ∧
    (∀ (w : Wire) (bs : List Byte), w.auth = true → (9216 < w.len ∨ w.udp ≠ s.pkg.ingport) → exec (.commandFrame ⟨w, bs⟩) s = .next s) ∧
    (∀ (w : Wire) (bs : List Byte), Frame s w → ((∀ n, 1 ≤ n → n ≤ 16 → bs.length ≠ 32 + 64 * n) ∨ leNat (bs.take 1) ≠ 1) →
      exec (.commandFrame ⟨w, bs⟩) s = .next { s with pkg := { s.pkg with badfmt := min (s.pkg.badfmt + 1) (2 ^ 32 - 1) } }) ∧
    (∀ (w : Wire) (bs : List Byte) (n q isq : Nat) (h : QHeld), Frame s w → bs.length = 32 + 64 * n → 1 ≤ n → n ≤ 16 → leNat (bs.take 1) = 1 →
      leNat ((bs.drop 4).take 4) % 4096 = q → leNat ((bs.drop 8).take 8) = isq → s.qv q = h →
      (∀ key, s.frameWaits q n = some key → exec (.commandFrame ⟨w, bs⟩) s = .next (s.lateAt key (.ingress q bs))) ∧
      (s.frameWaits q n = none → h.qst = 0 ∨ h.qst = 5 ∨ (s.rd (s.qdesc q + 0x38) 8).testBit 63 = false →
        exec (.commandFrame ⟨w, bs⟩) s = .next { s with pkg := { s.pkg with noq := min (s.pkg.noq + 1) (2 ^ 32 - 1) } }) ∧
      (s.frameWaits q n = none → h.qst ≠ 0 → h.qst ≠ 5 → (s.rd (s.qdesc q + 0x38) 8).testBit 63 = true → Leads (exec (.commandFrame ⟨w, bs⟩) s) fun t =>
        match opens s q n bs with
        | none => t = { s with pkg := { s.pkg with badtag := min (s.pkg.badtag + 1) (2 ^ 32 - 1) } }
        | some text =>
          if isq ≤ s.rd (s.qdesc q + 0x38) 8 % 2 ^ 63 then t = { s with pkg := { s.pkg with replay := min (s.pkg.replay + 1) (2 ^ 32 - 1) } }
          else if 2 ^ s.qsz q < (h.widx + 2 ^ 32 - h.ridx) % 2 ^ 32 + n then
            t = { s with pkg := { s.pkg with full := min (s.pkg.full + 1) (2 ^ 32 - 1) } }
          else (∀ loc, RingAt s q n h loc → (h.mapped = true ∨ DescFree s q) → s.resetHits h.cid = false → Accepted s t q n isq h text loc))) ∧
    (∀ p x, s.pt p = x →
      (x.lst = 1 ∨ x.lst = 3 →
        (∀ i : Ident, i.gdn / 2 ^ 10 = s.pkg.pod → (podNeighbours s.pkg.member)[p]? = some (i.gdn % 2 ^ 10) →
          Leads (exec (.linkTrainEnd p (some i)) s) fun t => (∀ k, k ≠ p → t.pt k = s.pt k) ∧ MemSame s t ∧ t.thr = s.thr ∧
            t.pt p = { x with lst := 2, peer := i.gdn % 2 ^ 20, pinc := i.inc % 2 ^ 8, pport := i.port % 2 ^ 5, consec := 0, seq := 0, asm := []
                              replays := [], tx := (t.pt p).tx, buf := (t.pt p).buf } ∧
            ((∀ c ∈ s.fab.cust, c.port ≠ p) → (t.pt p).tx = 0 ∧ (t.pt p).buf = [] ∧ t.fab.sent = s.fab.sent) ∧
            Tbl.get 0 t.fab.inc (i.gdn % 2 ^ 10) = i.inc % 2 ^ 8) ∧
        (∀ i : Ident, i.gdn / 2 ^ 10 ≠ s.pkg.pod ∨ (podNeighbours s.pkg.member)[p]? ≠ some (i.gdn % 2 ^ 10) →
          Leads (exec (.linkTrainEnd p (some i)) s) fun t => (t.pt p).lst = 4 ∧ t.fab.inc = s.fab.inc ∧ MemSame s t ∧ t.thr = s.thr) ∧
        Leads (exec (.linkTrainEnd p none) s) fun t => MemSame s t ∧ t.thr = s.thr ∧
          t.pt p = { x with fails := min 15 (x.fails + 1), consec := x.consec + 1, lst := if 2 ≤ x.consec then 5 else 1 }) ∧
      (x.lst = 2 → Leads (exec (.lossOfSignal p) s) fun t =>
        t = { s with fab := { s.fab with port := t.fab.port } } ∧ t.pt p = { x with lst := 3, replays := [] } ∧ ∀ k, k ≠ p → t.pt k = s.pt k) ∧
      (x.lst ≠ 2 → exec (.lossOfSignal p) s = .next s ∧ ∀ q f, exec (.flitReceive p q f) s = .next s) ∧
      (∀ q n bs, x.lst = 2 →
        let heard := { x with fec := min (2 ^ 64 - 1) (x.fec + n) }
        let all := x.asm ++ bs.take 256
        let only (t : State) (y : Port) := t.pt p = y ∧ (∀ k, k ≠ p → t.pt k = s.pt k) ∧ t.mem = s.mem ∧ t.thr = s.thr
        (q % 2 ^ 12 ≠ x.seq → Leads (exec (.flitReceive p q (some ⟨n, bs⟩)) s) fun t => only t heard ∧ t.agenda = s.agenda) ∧
        (q % 2 ^ 12 = x.seq → all.length < 32 + headLen all → Leads (exec (.flitReceive p q (some ⟨n, bs⟩)) s) fun t =>
          only t { heard with seq := (x.seq + 1) % 2 ^ 12, asm := all } ∧ t.agenda = s.agenda) ∧
        (q % 2 ^ 12 = x.seq → 32 + headLen all ≤ all.length →
          (∀ i, arrivalOf p (pktOf all) = some i → Leads (exec (.flitReceive p q (some ⟨n, bs⟩)) s) fun t =>
            only t { heard with seq := (x.seq + 1) % 2 ^ 12, asm := [] } ∧ t.agenda = .event i :: s.agenda) ∧
          (10 ≤ (pktOf all).kind → Leads (exec (.flitReceive p q (some ⟨n, bs⟩)) s) fun t =>
            only t { heard with seq := (x.seq + 1) % 2 ^ 12, asm := [], rsvd := x.rsvd + 1 } ∧ t.agenda = s.agenda))) ∧
      (x.lst = 2 → ∀ q, Leads (exec (.flitReceive p q none) s) fun t => (∀ k, k ≠ p → t.pt k = s.pt k) ∧
        (t.pt p).rpl = min (2 ^ 64 - 1) (x.rpl + 1) ∧ (t.pt p).seq = x.seq ∧
        (t.pt p).lst = if 15 ≤ (x.replays.filter fun a => decide (s.time < a + 1000000)).length then 3 else 2))

/-- A queue's descriptor is free, its fields fit there, and its ring status block stands at locations that the hardware reaches through translations that
it holds, outside every descriptor. -/
def StatusAt (s : State) (q : Nat) (h : QHeld) : Prop :=
  q < 4096 ∧ DescFree s q ∧ Fits h ∧ ∀ i, i < 2 → ∃ l, s.hwLoc h.cid ((s.ringEnd q + 8 * i) % 2 ^ 56) true = (some l, s) ∧ s.inHst l 8 = false ∧
    ∀ k, k < 4096 → l + 8 ≤ s.qdesc k ∨ s.qdesc k + 64 ≤ l

/-- The resets by the control register: each with its rung and target, and whether the target names nothing (R68). -/
def resetEvents (s : State) (who : Who) (n : Nat) : List (Instr × Nat × Nat × Prop) :=
  [(.resetQueue who false n, 1, n, 4096 ≤ n), (.resetEngine who n, 2, n, 32 ≤ n ∨ (4 ≤ n ∧ n < 16)),
    (.resetPartition who n, 3, n, n ∉ layoutOf s.pkg.pmode), (.resetDie who n, 4, n, 4 ≤ n),
    (.resetFunction who n, 5, n, 64 ≤ n ∨ ∀ x ∈ s.ctx, x.2.state = 0 ∨ x.2.func ≠ n), (.resetDevice who, 6, 0, False)]

/-- R67 to R69: a reset by HS or M mode or the management controller begins, with `RSTAT` 1, when its target names something, and ends with `RSTAT`
0 once it has its rung's effect; a bad target resets nothing and `RSTAT` is 2; a write of `RSTCTL` while a reset is in progress is ignored, or
leaves `RSTAT` 3 when that one is of rung 6; another writer's resets nothing. The function reset waits until no request of its contexts is
outstanding. A CP's reset writes each of its queues back as Faulted with `QFC` RESET. (That a reset takes two steps is the model's: log 2; which
contexts the function reset takes: log 41; the time after a device reset: log 56.) -/
def Obligations.Resets : Prop :=
  ∀ (s : State) (who : Who) (n : Nat),
    (whoAdmin who = true → ∀ x ∈ resetEvents s who n,
      (s.pkg.reset = none → ¬x.2.2.2 → exec x.1 s = .next { s with
        pkg := { s.pkg with rstat := 1, reset := some (x.2.1, x.2.2.1) }, agenda := s.agenda ++ [.event x.1] }) ∧
      (s.pkg.reset = none → x.2.2.2 → exec x.1 s = .next { s with pkg := { s.pkg with rstat := 2 } }) ∧
      (∀ r, s.pkg.reset = some r → r ≠ (x.2.1, x.2.2.1) →
        exec x.1 s = .next (if r.1 = 6 then { s with pkg := { s.pkg with rstat := 3 } } else s))) ∧
    (whoAdmin who = true → ∀ (r : Nat × Nat) (v : DWord), s.pkg.reset = some r →
      (r.1 ≠ 6 → exec (.registerWrite who (hbmTop + 0x18) 8 v) s = .next s) ∧
      (r.1 = 6 → 1 ≤ v.toNat % 8 → v.toNat % 8 ≤ 6 →
        exec (.registerWrite who (hbmTop + 0x18) 8 v) s = .next { s with pkg := { s.pkg with rstat := 3 } })) ∧
    (whoAdmin who = true →
      let ended (t : State) : Prop := t.pkg.rstat = 0 ∧ t.pkg.reset = none
      (s.pkg.reset = some (1, n) → n < 4096 → s.pkg.latched = [] → Leads (exec (.resetQueue who false n) s) fun t =>
        ended t ∧ (Tbl.get {} t.q n).mapped = false ∧ (Tbl.get {} t.watch n).armed = false ∧
        (∀ p ∈ t.pkts, p.q = n → p.begun = true) ∧
        (DescFree s n → (t.qv n).ridx = (s.qv n).widx % 2 ^ 32 ∧ (t.qv n).widx = (s.qv n).widx % 2 ^ 32 ∧ (t.qv n).wakea = 0)) ∧
      (s.pkg.reset = some (2, n) → n < 4 → s.pkg.latched = [] → Leads (exec (.resetEngine who n) s) fun t =>
        ended t ∧ t.thr = s.thr ∧ (∀ x ∈ t.q, ¬(x.2.mapped = true ∧ x.2.die = n)) ∧
        (Tbl.wf {} s.q = true → s.tags = [] → (∀ q h, Tbl.get {} s.q q = h → h.mapped = true → h.die = n → StatusAt s q h) →
          ∀ q h, Tbl.get {} s.q q = h → h.mapped = true → h.die = n → t.qv q = faulted h 6)) ∧
      (s.pkg.reset = some (2, n) → 16 ≤ n → n < 32 → s.pkg.latched = [] → Leads (exec (.resetEngine who n) s) fun t =>
        ended t ∧ MemSame s t ∧ t.thr = s.thr ∧
        ∀ k, (s.sl k).eng = n - 16 → 2 ≤ (s.sl k).st → (s.sl k).st ≤ 6 → (t.sl k).st = 7 ∧ (t.sl k).frsn = 10) ∧
      (s.pkg.reset = some (3, n) → Leads (exec (.resetPartition who n) s) fun t =>
        ended t ∧ (∀ x ∈ t.blk, x.2.live = true → inMask n (coreDie x.2.core) = false) ∧
        ∀ c, (s.cx c).state ∈ [4, 5] → (s.cx c).dies &&& n ≠ 0 → (t.cx c).state = 7 ∧ (t.cx c).fcause = 5) ∧
      (∀ m, s.pkg.reset = some (4, n) → m ∈ layoutOf s.pkg.pmode → inMask m n = true → Leads (exec (.resetDie who n) s) fun t =>
        ended t ∧ (∀ x ∈ t.blk, x.2.live = true → inMask m (coreDie x.2.core) = false) ∧
        ∀ c, (s.cx c).state ∈ [4, 5] → (s.cx c).dies &&& m ≠ 0 → (t.cx c).state = 7 ∧ (t.cx c).fcause = 5) ∧
      (∀ u, s.pkg.reset = some (5, n) → u = ((s.funcCtxs n).filter fun c => (s.cx c).state != 8).foldl (fun u c => u.destroy c) s →
        ((∀ c ∈ s.funcCtxs n, u.hasRequest c = false) → Leads (exec (.resetFunction who n) s) fun t =>
          ended t ∧ ∀ c, (s.cx c).func = n → (s.cx c).state ≠ 0 → (t.cx c).state = 0 ∧ (t.cx c).cbusy = false ∧
            ∀ x ∈ t.held, x.1 / 2 ^ 40 ≠ (s.cx c).asid) ∧
        ((∃ c ∈ s.funcCtxs n, u.hasRequest c = true) → Leads (exec (.resetFunction who n) s) fun t =>
          t = { u with agenda := u.agenda ++ [.elapse 1, .event (.resetFunction who n)] } ∧
          ∀ c, (s.cx c).func = n → (s.cx c).state ≠ 0 → (t.cx c).state = 8)) ∧
      (s.pkg.reset = some (6, 0) → Leads (exec (.resetDevice who) s) fun t =>
        ended t ∧ t.mem = [] ∧ t.thr = [] ∧ t.blk = [] ∧ t.grid = [] ∧ t.ctx = [] ∧ t.q = [] ∧ t.held = [] ∧ t.slot = [] ∧ t.time = 0 ∧
        t.mg.boot = .off ∧ t.mg.pkeySet = false ∧ t.mg.firstBind = false ∧ t.mg.m = List.replicate 8 0 ∧ t.mg.ras = s.mg.ras ∧
        t.mg.svn = s.mg.svn ∧ t.mg.flash = s.mg.flash ∧ t.pkg.pod = s.pkg.pod ∧ t.pkg.member = s.pkg.member ∧ t.pkg.price = s.pkg.price ∧
        t.pkg.inc = (s.pkg.inc + 1) % 2 ^ 8)) ∧
    (whoAdmin who = false → whoGuest who = false → ∀ x ∈ resetEvents s who n, exec x.1 s = .next s)

/-! ### Packets -/

/-- The packet at the read index of a queue begins: its CP thread stands at it, its context may run, its ordering is met, the arbiter serves the
queue, and its header has no field out of range and asks for no completion signal. -/
structure BeginsAt (s : State) (q : Nat) (p : Packet) (s1 : State) : Prop where
  stands : s.standsAt q (pkSlots p) = true
  running : 3 ≤ (s.cx (s.qv q).cid).state ∧ (s.cx (s.qv q).cid).state ≤ 6
  ordered : s.ordOk q p = true
  turn : s.arbPacket q (s.cx (s.qv q).cid).dies = (s1, true)
  header : pkCop p ≠ 3 ∧ pkCsig p = false

/-- The read index of a queue has moved past `n` slots, and no thread, block, core or context differs. -/
def Read (s t : State) (q n : Nat) : Prop :=
  (t.qv q).ridx = ((s.qv q).ridx + n) % 2 ^ 32 ∧ t.thr = s.thr ∧ t.gang = s.gang ∧ t.blk = s.blk ∧ t.ctx = s.ctx

/-- No packet of a queue at an index is outstanding. -/
def Gone (t : State) (q idx : Nat) : Prop := ∀ x ∈ t.pkts, ¬(x.q = q ∧ x.idx = idx)

/-- R49 to R52, R55, R285, R400: `NOP`, `WAIT`, `SIGNAL`, `PUBLISH` and `STEPMARK` move the read index and have their effect; a `WAIT` that is not
satisfied Blocks its queue with its watch armed; a packet whose `COP` is 3, or whose queue's context is below Ready or Faulted, faults the
queue, with code BADFIELD or NOCTX and `FIDX` at the packet. (A `COP` of 3 without `CSIG`: log 23; a step mark is the move that comes last in the
agenda: logs 2 and 75.) -/
def Obligations.SimplePackets : Prop :=
  (∀ (s s1 : State) (q : Nat) (p : Packet) (h : QHeld), s.qv q = h → BeginsAt s q p s1 →
      (∀ s3, s1.advance q (pkSlots p) = some s3 → Leads (exec (.nopPacket q p) s) fun t =>
        Read s t q (pkSlots p) ∧ MemSame s3 t ∧ t.core = s.core ∧ Gone t q h.ridx) ∧
      (∀ n s2 s3, pkAddr p 1 % 8 = 0 → s1.cpPlace h.cid (pkAddr p 1) true false = (.ok (.loc n), s2) → pkWord p 2 ≤ s2.rd n 8 →
        s2.advance q 1 = some s3 → Leads (exec (.waitPacket q p) s) fun t => t = s3 ∧ Read s t q 1 ∧ (t.qv q).qst = 2) ∧
      (∀ n m s2 s3 s4, pkAddr p 1 % 8 = 0 → s1.cpPlace h.cid (pkAddr p 1) true false = (.ok (.loc n), s2) → s2.rd n 8 < pkWord p 2 →
        s2.advance q 1 = some s3 →
        (({ s3 with watch := Tbl.set {} s3.watch q { Tbl.get {} s3.watch q with tag := pkTag p } } : State).qput q
          { s3.qv q with wakea := pkAddr p 1, wakev := pkWord p 2 }).cpPlace h.cid (pkAddr p 1) true false = (.ok (.loc m), s4) →
        s4.rd m 8 < pkWord p 2 → Leads (exec (.waitPacket q p) s) fun t =>
          Read s t q 1 ∧ MemSame s3 t ∧ (t.qv q).qst = 3 ∧ (t.qv q).wakea = pkAddr p 1 ∧ (t.qv q).wakev = pkWord p 2 ∧
          (Tbl.get {} t.watch q).armed = true ∧ (Tbl.get {} t.watch q).loc = m ∧ (Tbl.get {} t.watch q).hit = false ∧
          (Tbl.get {} t.watch q).tag = pkTag p) ∧
      (∀ a m s2 s3 s4, pkAddr p 1 % 8 = 0 → bitsOf (pkWord p 0) 16 2 ≠ 3 → s1.cpPlace h.cid (pkAddr p 1) true true = (.ok (.loc a), s2) →
        s2.advance q (pkSlots p) = some s3 → s3.cpPlace h.cid (pkAddr p 1) true true = (.ok (.loc m), s4) → s4.inHst m 8 = false →
        (∀ x ∈ s.fab.sigs, x.1 ≠ q) → s4.migrating (s.cx h.cid).asid (pkAddr p 1) = false → s4.frameMigrating m = none →
        Leads (exec (.signal q p) s) fun t =>
          Read s t q (pkSlots p) ∧ MemBut s3 t m 8 ∧ Gone t q h.ridx ∧ t.rd m 8 = match bitsOf (pkWord p 0) 16 2 with
            | 0 => pkWord p 2
            | 1 => (s3.rd m 8 + pkWord p 2) % 2 ^ 64
            | _ => max (s3.rd m 8) (pkWord p 2)) ∧
      (∀ s3, s1.advance q (pkSlots p) = some s3 → Leads (exec (.publish q p) s) fun t =>
        Read s t q (pkSlots p) ∧ Gone t q h.ridx ∧ ∀ k, k / 2 ^ 40 = (s.cx h.cid).asid → (Tbl.get {} s.held k).st = 4 →
          (Tbl.get {} s.held k).handle = pkWord p 1 % 2 ^ 24 → pkWord p 1 % 2 ^ 24 ≠ 0 → (Tbl.get {} t.held k).written = []) ∧
      (∀ s3, s1.advance q (pkSlots p) = some s3 → Leads (exec (.stepmark q p) s) fun t =>
        Read s t q (pkSlots p) ∧ MemSame s3 t ∧ Gone t q h.ridx ∧ t.agenda = s.agenda ++
          [.event (.stepMarkArrive h.cid (.ofNat 64 (pkWord p 1)) h.edge (3 * 2 ^ 22 + h.die * 2 ^ 5 + h.thr))])) ∧
  (∀ (s s1 : State) (q code : Nat) (p : Packet) (c : Ctx), s.standsAt q (pkSlots p) = true → s.cx (s.qv q).cid = c →
      (c.state < 3 ∨ 6 < c.state) ∧ code = 4 ∧ s1 = s ∨
        3 ≤ c.state ∧ c.state ≤ 6 ∧ code = 2 ∧ s.ordOk q p = true ∧ pkCop p = 3 ∧ s.arbPacket q c.dies = (s1, true) →
      ∀ i ∈ [Instr.nopPacket q p, .waitPacket q p, .signal q p, .publish q p, .stepmark q p, .collect q p],
        Leads (exec i s) fun t => QFaulted s1 t q code ∧ (s1.qv q).ridx = (s.qv q).ridx ∧ t.thr = s.thr ∧ t.blk = s.blk ∧ t.ctx = s.ctx ∧
          t.grid = s.grid)

/-- R53, R61, R62, R303: `COPY` puts its bytes on a channel of the partition (which one is the model's: log 8); a packet with handle accesses is
accepted first, after the packets that it is ordered after, and begins when they have completed: a `DEPEND` then completes, and a `LAUNCH` makes a
grid of its object, with its own number and its snapshot of the parameters. -/
def Obligations.WorkPackets : Prop :=
  ∀ (s s1 : State) (q : Nat) (p : Packet) (h : QHeld), s.qv q = h →
    (BeginsAt s q p s1 →
      (∀ core ch len a b s2 s3 s4, s.copyChan (s.cx h.cid).dies = some (core, ch) → pkWord p 3 % 2 ^ 40 = len → len ≠ 0 →
        s1.cpAcs q h.cid (pkAddr p 1) true false = (some a, s2) → s2.cpAcs q h.cid (pkAddr p 2) false true = (some b, s3) →
        s3.advance q 1 = some s4 → Leads (exec (.copyPacket q p) s) fun t =>
          Read s t q 1 ∧ MemSame s4 t ∧ (∃ e ∈ t.pkts, e.q = q ∧ e.idx = h.ridx ∧ e.begun = true) ∧
          ∃ x, ((t.co core).chan ch).xs = ((s.co core).chan ch).xs ++ [x] ∧ x.copy = some (q, h.ridx, pkAddr p 2) ∧
            x.tmpl.tbase = pkAddr p 1 ∧ x.tmpl.dims = [{ dim := len, str := 1, box := len }] ∧ x.done = [] ∧ x.cid = h.cid) ∧
      (∀ e, s.acceptedAt q h.ridx = some e → s.preOk e.pre = true →
        (∀ s3, pkNh p ≤ 8 → s1.advance q (pkSlots p) = some s3 → Leads (exec (.depend q p) s) fun t =>
          Read s t q (pkSlots p) ∧ MemSame s3 t ∧ t.core = s.core ∧ Gone t q h.ridx) ∧
        (∀ o bs s2 s3, e.mate = none → ({ s1 with gridCtr := s1.gridCtr + 1 } : State).launchCheck (some q) h.cid p = (.ok (o, bs), s2) →
          s2.advance q (pkSlots p) = some s3 → Leads (exec (.launch q p) s) fun t =>
            (t.qv q).ridx = (h.ridx + pkSlots p) % 2 ^ 32 ∧ t.thr = s.thr ∧ t.blk = s.blk ∧ t.gridCtr = s.gridCtr + 1 ∧
            (∀ x ∈ t.pkts, x.q = q → x.idx = h.ridx → x.begun = true) ∧ (∀ k, k ≠ s.gridCtr → t.gr k = s.gr k) ∧
            t.gr s.gridCtr =
              { o.grid h.cid q h.ridx bs with
                live := true, num := s.gridCtr % 2 ^ 32, gx := bitsOf (pkWord p 2) 32 31, gy := bitsOf (pkWord p 2) 16 16
                gz := pkWord p 2 % 2 ^ 16, ming := if bitsOf (pkWord p 0) 16 7 = 0 then o.ming else bitsOf (pkWord p 0) 16 7
                splok := (pkWord p 0).testBit 26, edge := s.gdn * 2 ^ 28 + h.die * 2 ^ 26 + (s.di h.die).edgeCtr }))) ∧
    (∀ pre, s.standsAt q (pkSlots p) = true → 3 ≤ (s.cx h.cid).state → (s.cx h.cid).state ≤ 6 → s.ordOk q p = true →
      s.acceptedAt q h.ridx = none → s.handleRoom (s.cx h.cid).dies h.cid (pkHandles p) = true →
      (s.takeHandles (s.cx h.cid).dies h.cid (q, h.ridx) (pkHandles p)).1 = pre → (∃ x ∈ pre, ∃ y ∈ s.pkts, y.q = x.1 ∧ y.idx = x.2) →
      Leads (exec (.depend q p) s) fun t =>
        t.qv q = h ∧ MemSame s t ∧ t.thr = s.thr ∧ t.blk = s.blk ∧ ∃ e, t.acceptedAt q h.ridx = some e ∧ e.begun = false ∧ e.pre = pre)

/-- R307, R370, R373 to R375: `LOADSCHED` makes its slot Loaded, and then Bound with the object, the parameters and the communicator that it read;
`RUNSCHED` arms a slot that is Bound or Done, with the parameters of its block or, with an address of 0, those the slot holds (log 49); `COLLECT`
defines its node. (The order of reads of a load, and that its slot is chosen before it is read: logs 50 and 103.) -/
def Obligations.ScheduleAndNodePackets : Prop :=
  ∀ (s s1 : State) (q slot : Nat) (p : Packet) (h : QHeld) (x : TSlot), s.qv q = h → bitsOf (pkWord p 0) 16 6 = slot → s.sl slot = x →
    (∀ s2, BeginsAt s q p s1 → x.loader = none → (x.st < 3 ∨ 5 < x.st) → (x.st = 0 ∨ x.cid = h.cid) → s1.advance q 0 = some s2 →
      Leads (exec (.loadsched q p) s) fun t => Read s t q 0 ∧ MemSame s2 t ∧ (∀ n, n ≠ slot → t.sl n = s.sl n) ∧
        t.sl slot = { x with st := 1, loader := some (q, x.st) }) ∧
    (∀ eng st0 o ps rank size comm u s2 s3 s4 s5, x.loader = some (q, st0) → x.st = 1 → s.standsAt q 1 = true → pkCsig p = false → u = s.unload q →
      (u.sl slot).st = st0 → bitsOf (pkWord p 0) 24 4 = eng → (st0 = 0 ∨ x.cid = h.cid) →
      inMask (s.cx h.cid).dies (eng / 4) = true → pkAddr p 1 % 64 = 0 → pkAddr p 2 % 16 = 0 → pkAddr p 3 % 8 = 0 →
      u.readSched q h.cid (pkAddr p 1) = (.ok o, s2) → s2.readParams q h.cid (pkAddr p 3) = (.ok ps, s3) →
      s3.readComm q h.cid (pkAddr p 2) = (.ok (rank, size, comm), s4) → s4.schedOk (s.cx h.cid).dies slot eng o rank comm = true →
      s4.advance q (pkSlots p) = some s5 → Leads (exec (.loadsched q p) s) fun t =>
        Read s t q (pkSlots p) ∧ MemSame s5 t ∧ Gone t q h.ridx ∧
        t.sl slot = { st := 2, cid := h.cid, eng, rank, size, comm, params := ps, words := o.words, nv := o.nv, node := o.node
                      scount := o.scount, skid := o.skid, edge := h.edge, runs := x.runs, trap := x.trap }) ∧
    (∀ ps s2 s3, BeginsAt s q p s1 → x.st = 2 ∨ x.st = 6 → x.cid = h.cid → pkAddr p 1 % 8 = 0 →
      (pkAddr p 1 = 0 → ps = x.params ∧ s2 = s1) → (pkAddr p 1 ≠ 0 → s1.readParams q h.cid (pkAddr p 1) = (.ok ps, s2)) →
      s2.advance q 1 = some s3 → Leads (exec (.runsched q p) s) fun t =>
        Read s t q 1 ∧ MemSame s3 t ∧ (∃ e ∈ t.pkts, e.q = q ∧ e.idx = h.ridx ∧ e.begun = true) ∧ (∀ n, n ≠ slot → t.sl n = s.sl n) ∧
        t.sl slot = { x with st := 3, g := List.replicate 16 0, pc := 0, params := ps, edge := h.edge % 2 ^ 48
                             armer := some (q, h.ridx), armedAt := s3.fresh, wait := .none }) ∧
    (∀ (o : KObj) (bs : List Byte) (fits : KObj → Bool) (node tmr : Nat) (s2 s3 : State), BeginsAt s q p s1 →
      bitsOf (pkWord p 0) 16 8 = node → pkWord p 3 % 2 ^ 8 = tmr →
      (∀ o : KObj, fits o = true ↔ (o.bdx = 32 ∧ o.bdy = 1 ∧ o.bdz = 1 ∧ o.csize = 1 ∧ (8 * o.psz + 31) / 32 * 32 + 1024 ≤ o.spad ∧
        o.splice = none ∧ 1 ≤ tmr ∧ tmr ≤ 128 ∧ s.slotOfNode (s.cx h.cid).dies node = none)) →
      s1.objCheck (some q) h.cid (pkAddr p 1) none (pkAddr p 2) 0 (fun _ => true) fits = (.ok (o, bs), s2) →
      s2.advance q (pkSlots p) = some s3 → Leads (exec (.collect q p) s) fun t =>
        (t.qv q).ridx = (h.ridx + pkSlots p) % 2 ^ 32 ∧ Gone t q h.ridx ∧ t.thr = s.thr ∧ t.grid = s.grid ∧
        Tbl.get {} t.node ((s.cx h.cid).dies * 256 + node) =
          { Tbl.get {} s.node ((s.cx h.cid).dies * 256 + node) with
            def' := some { o.grid h.cid q h.ridx bs with gx := 1, gy := 1, gz := 1 }, tmr := tmr * 500 })

/-! ### Grids, clauses, units -/

/-- One core of a state is this one, and nothing else of the state differs. -/
def CoreIs (s t : State) (c : Nat) (x : Core) : Prop := t = { s with core := t.core } ∧ t.co c = x ∧ ∀ k, k ≠ c → t.co k = s.co k

/-- The edge id that the Scribe of a die gives next (R397). -/
def nextEdge (s : State) (die : Nat) : Nat := s.gdn * 2 ^ 28 + die * 2 ^ 26 + (s.di die).edgeCtr

/-- A gather has launched as a gang (R308). -/
def GangOf (s t : State) (dies node : Nat) (x : Gather) : Prop :=
  t.gridCtr = s.gridCtr + 1 ∧ t.thr = s.thr ∧ t.blk = s.blk ∧
  t.gr s.gridCtr = { x.grid with node := some (dies * 256 + node), recs := x.recs, live := true, num := s.gridCtr % 2 ^ 32
                                 edge := nextEdge s (s.qDie x.grid.q) }

/-- R101, R305, R308, R336, R374: a core cluster wakes after its time and is gated when idle and permitted; a block that may retire leaves its core
and is counted, and the last one ends its grid; a record in flight reaches its schedule or its gather, and a gather that is full or whose
timer has lapsed launches. -/
def Obligations.GridEvents : Prop :=
  ∀ (s : State),
    (∀ cl, (s.cc cl).waking = true → (s.cc cl).since + 1500 ≤ s.time → Leads (exec (.clusterWakeDone cl) s) fun t =>
      t = { s with ccl := t.ccl } ∧ t.cc cl = { awake := true, waking := false, since := s.time } ∧ ∀ k, k ≠ cl → t.cc k = s.cc k) ∧
    (∀ cl, (s.cc cl).awake = true → (s.cc cl).since + 10000 ≤ s.time →
      (∀ x ∈ s.blk, x.2.live = true → coreCcl x.2.core ≠ cl) → (∀ k, k < 8 → ∀ y ∈ (s.co (8 * cl + k)).chans, y.xs = []) → s.gateOk cl = true →
      Leads (exec (.clusterGate cl) s) fun t =>
        t = { s with ccl := t.ccl } ∧ t.cc cl = { awake := false, waking := false, since := s.time } ∧ ∀ k, k ≠ cl → t.cc k = s.cc k) ∧
    (∀ bid gid g, s.retirable bid = true → (s.bk bid).gid = gid → s.gr gid = g → (s.bk bid).peers = [bid] →
      Leads (exec (.blockRetire bid) s) fun t =>
        t.bk bid = {} ∧ (∀ m, m / 1024 = bid → t.th m = {}) ∧ (∀ k, k ≠ bid → t.bk k = s.bk k) ∧
        (g.retired + 1 ≠ g.total → t.gr gid = { g with retired := g.retired + 1 }) ∧
        (g.retired + 1 = g.total → t.gr gid = {} ∧ (g.node = none → Gone t g.q g.idx))) ∧
    (∀ k r n x c, s.recs[k]? = some r → s.slotOfNode r.dies r.node = some n → s.sl n = x → min (x.recs + 1) 65535 = c →
      (c < x.scount → Leads (exec (.recAccept k) s) fun t => t.recs = s.recs.eraseIdx k ∧ t.sl n = { x with recs := c }) ∧
      (x.scount ≤ c → x.st = 2 ∨ x.st = 6 → Leads (exec (.recAccept k) s) fun t => t.recs = s.recs.eraseIdx k ∧
        t.sl n = { x with recs := c - x.scount, st := 3, g := .ofNat 64 (r.body.getD 0 0) :: List.replicate 15 0, pc := 0
                          edge := r.body.getD 1 0 % 2 ^ 48, armer := none, armedAt := s.fresh, wait := .none }) ∧
      (x.scount ≤ c → x.st ∈ [3, 4, 5] → x.pend = none → Leads (exec (.recAccept k) s) fun t => t.recs = s.recs.eraseIdx k ∧
        t.sl n = { x with recs := c, pend := some (r.body.getD 0 0, r.body.getD 1 0) })) ∧
    (∀ k r nd g, s.recs[k]? = some r → s.slotOfNode r.dies r.node = none → Tbl.get {} s.node (r.dies * 256 + r.node) = nd → nd.def' = some g →
      (nd.gathers = [] → Leads (exec (.recAccept k) s) fun t => t.recs = s.recs.eraseIdx k ∧ t.thr = s.thr ∧ t.grid = s.grid ∧
        Tbl.get {} t.node (r.dies * 256 + r.node) =
          { nd with gathers := [{ grid := g, tmr := nd.tmr, first := s.time, recs := [r.body] }] }) ∧
      (∀ x, nd.gathers = [x] → x.grid = g → x.tmr = nd.tmr → x.recs.length = 31 → Leads (exec (.recAccept k) s) fun t =>
        t.recs = s.recs.eraseIdx k ∧ Tbl.get {} t.node (r.dies * 256 + r.node) = { nd with gathers := [] } ∧
        GangOf s t r.dies r.node { x with recs := x.recs ++ [r.body] })) ∧
    (∀ dies node nd x xs, Tbl.get {} s.node (dies * 256 + node) = nd → nd.gathers = x :: xs → x.first + x.tmr ≤ s.time →
      Leads (exec (.collectTimer dies node) s) fun t =>
        Tbl.get {} t.node (dies * 256 + node) = { nd with gathers := xs } ∧ GangOf s t dies node x)

/-- The PC table of a core before an issue: deferrals that are over have ended, and frontiers without an entry have taken a free one (R103, R107). -/
def tabled (s : State) (core : Nat) : State := ((s.undefer core).fillTable core).modCo core fun c => { c with stall := none }

/-- The threads that begin a clause on a core at an issue, and the state in which they do: those of the clause that waits for tokens, before all others
(R328); else those of a group whose fault at its header is resolved, made Ready (R261); else those of the entry that the table picks (R103, R104). -/
def Begins (s : State) (core : Nat) (ms : List Nat) (sb : State) : Prop :=
  let s0 := (s.undefer core).fillTable core
  (s0.stalledAt core ≠ [] ∧ ms = s0.stalledAt core ∧ sb = s0) ∨
  (s0.stalledAt core = [] ∧ ∃ g rest, (s.co core).replay = g :: rest ∧
    ((tabled s core).modCo core fun c => { c with replay := rest }).wakeGroup g = (ms, sb)) ∨
  (s0.stalledAt core = [] ∧ (s.co core).replay = [] ∧ ∃ e, (tabled s core).pickEntry core = some e ∧ ms = e.members ∧ sb = tabled s core)

/-- R75, R103, R104, R106, R116, R261, R326, R328: a group whose fault at a slot is resolved replays it without a charge; else the threads that
begin a clause issue it, paid from the core's bucket, as the group of those that stay; where the bucket cannot pay, the clause waits and the core
stalls, and it is the next that begins. (That the table ends deferrals and frees entries of frontiers that are gone before an issue is the model's:
log 95, log 98.) -/
def Obligations.ClauseIssues : Prop :=
  ∀ (s : State) (core : Nat) (c : Core), s.co core = c → (s.di (coreDie core)).relock = false → c.grp = none →
    (∀ ms0 sb h ms s1 s2 pc amt, (∀ g ∈ c.replay, g.hdr = 0) → Begins s core ms0 sb → ms0 ≠ [] → (sb.th (ms0.headD 0)).pc = pc →
      sb.header (ms0.headD 0) = (.ok h, s1) → s1.memberChecks (mkPc (pcHeader pc) 0) (pcSlot pc == 0) ms0 = (ms, s2) → ms ≠ [] →
      s2.charge (ms.headD 0) (pcHeader pc) (max 1 (pcSlot pc)) ms.length (s2.clauseWords (ms.headD 0) h) = amt →
      ((min amt (4096 * 256) : Nat) ≤ (s2.co core).bucket → Leads (exec (.clauseIssue core) s) fun t =>
        t.co core = { s2.co core with
          stall := none, bucket := (s2.co core).bucket - amt, charged := (s2.co core).charged + amt, issues := (s2.co core).issues + 1
          table := (s2.co core).table.erase (s2.keyOf (ms.headD 0))
          grp := some { addr := pcHeader pc, hdr := h, slot := max 1 (pcSlot pc), members := ms } } ∧
        t.mem = s2.mem ∧ ∀ m, (t.th m).keepsRegs (s2.th m) ∧ (t.th m).pc = (s2.th m).pc ∧ (t.th m).st = (s2.th m).st) ∧
      ((s2.co core).bucket < (min amt (4096 * 256) : Nat) → Leads (exec (.clauseIssue core) s)
        (CoreIs s2 · core { s2.co core with
          stall := some (s2.keyOf (ms.headD 0), ms), stalls := (s2.co core).stalls + (s2.co core).stall.isNone.toNat }))) ∧
    (∀ g pre rest, c.replay = pre ++ g :: rest → (∀ x ∈ pre, x.hdr = 0) → g.hdr ≠ 0 →
      (∀ m ∈ g.members, s.resident m = true ∧ (s.th m).st = .stalled ∧ (s.th m).token = none) → g.members ≠ [] →
      Leads (exec (.clauseIssue core) s) fun t =>
        t.co core = { c with replay := pre ++ rest, grp := some g } ∧ MemSame s t ∧ ∀ m ∈ g.members, t.th m = { s.th m with st := .ready })

/-- The custody ACK that a device gives for a packet it takes (R356), back on the port that the packet came by. -/
def ackOf (p : Nat) (pk : FabPkt) : Nat × FabPkt := (p, { pk with kind := 8, opx := 0, data := [] })

/-- A response to a request: the packet that answers it, but for its route (R354, R357). -/
def respTo (s : State) (pk : FabPkt) (kind opx edge : Nat) (data : List Byte) : FabPkt :=
  { kind, via := 0x3FF, sinc := s.pkg.inc, dinc := Tbl.get 0 s.fab.inc (pk.sgdn % 2 ^ 10), seq := pk.seq, tag := pk.tag, sgdn := s.gdn
    dgdn := pk.sgdn, hop := 0, opx, pa := 0, edge, atype := 0, data }

/-- A packet comes by a link that is Up, is of the present incarnation of its source and of this device (R352, R361), and is for this device. -/
structure ForUs (s : State) (p : Nat) (pk : FabPkt) : Prop where
  link : p < 32 ∧ (s.pt p).lst = 2
  dest : pk.dgdn = s.gdn
  source : pk.sinc % 2 ^ 8 = Tbl.get 0 s.fab.inc (pk.sgdn % 2 ^ 10) % 2 ^ 8
  mine : pk.dinc % 2 ^ 8 = s.pkg.inc % 2 ^ 8

/-- A response for this device, to the one request outstanding with its tag and sequence (R358). -/
structure AnswersTo (s : State) (p : Nat) (pk : FabPkt) (r : OutReq) : Prop where
  ours : ForUs s p pk
  among : r ∈ s.fab.out ∧ r.pk.tag = pk.tag ∧ r.pk.seq = pk.seq
  only : ∀ x ∈ s.fab.out, x.pk.tag = pk.tag → x = r

/-- A request has ended at its source: no request with its tag is outstanding, and all others are (R358). -/
def Ended (s t : State) (r : OutReq) : Prop := ∀ x, x ∈ t.fab.out ↔ x ∈ s.fab.out ∧ x.pk.tag ≠ r.pk.tag

/-- The one pending result of a thread waits for a request. -/
abbrev AwaitsTag (s : State) (tid tag : Nat) (p : Pend) : Prop := (s.th tid).pend = [p] ∧ p.src = .fabric tag

/-- The pending result of a thread has become a deferred error FABRIC of a NAK code (R229, R358). -/
def FabError (t : State) (tid : Nat) (p : Pend) (va code : Nat) : Prop :=
  ∃ q e, (t.th tid).pend = [q] ∧ q.flag = p.flag ∧ q.src = .here ∧ q.err = some e ∧ e.code = 0x0E ∧ e.va = va ∧ e.nak = code

/-- An end-to-end ACK of a response is in custody (R357). -/
def AckSent (t : State) (pk : FabPkt) : Prop :=
  ∃ c ∈ t.fab.cust, c.pk.kind = 8 ∧ c.pk.opx = 1 ∧ c.pk.tag = pk.tag ∧ c.pk.seq = pk.seq ∧ c.pk.dgdn = pk.sgdn

/-- R79, R118, R229, R232, R288, R295: a pending result whose data have come is written and its flag falls, or its error stays pending; once both
lanes of a register word have theirs, its error is gone; the matrix unit starts the next operation, and a finished one writes the fragment of its
signer. R356 to R358, R361, R365: a response or an ACK of another device ends its request, whose thread then has its data; a NAK ends it as a
deferred error FABRIC with its code, or sends it again; one without an outcome is probed, and at twice the deadline given up with code 8, or for a
power intent counted. (That a register word's error goes once the second lane has its data: log 108; that a NAK of this device's own comes by port
33, and the form of a probe: log 53.) -/
def Obligations.ResultsReturn : Prop :=
  ∀ (s : State) (tid : Nat) (x : Thr), s.resident tid = true → s.th tid = x →
    (∀ k p, x.pend[k]? = some p → p.src = .here → p.err = none → Leads (exec (.memoryReturn tid k) s) fun t =>
      (p.tok = 0 → t = { s with thr := t.thr } ∧ ∀ m, m ≠ tid → t.th m = s.th m) ∧ (t.th tid).gets p.dst p.vals ∧
      (t.th tid).keepsBut x p.dst p.vals.length ∧ (t.th tid).pend = x.pend.eraseIdx k ∧ (t.th tid).flag p.flag = x.flag p.flag - 1 ∧
      (∀ j, j ≠ p.flag → (t.th tid).flag j = x.flag j) ∧ (t.th tid).pc = x.pc ∧ (t.th tid).st = x.st) ∧
    (∀ k p e, x.pend[k]? = some p → p.src = .here → p.err = some e → x.st ≠ .exited → Leads (exec (.memoryReturn tid k) s) fun t =>
      (p.tok = 0 → t = { s with thr := t.thr } ∧ ∀ m, m ≠ tid → t.th m = s.th m) ∧ (t.th tid).pend = x.pend.eraseIdx k ∧
      (t.th tid).keepsRegs x ∧ (t.th tid).errs = x.errs ++ [{ e with seq := p.seq }] ∧ (t.th tid).flag p.flag = x.flag p.flag - 1 ∧
      ∀ j, j ≠ p.flag → (t.th tid).flag j = x.flag j) ∧
    (∀ k p r, x.pend[k]? = some p → p.src = .here → p.err = none → p.tok ≠ 0 → p.both = true → p.dst = .reg r →
      (∀ y ∈ (s.th (tidPair tid)).pend, y.tok ≠ p.tok) → Leads (exec (.memoryReturn tid k) s) fun t =>
        ∀ j, j < p.vals.length → 256 * (tidLane tid / 2) + (r.val + j) ∉ (t.gg (tidGk tid)).poison) ∧
    (∀ core op rest p, (s.co core).muOut = op :: rest → op.outs = [tid] → x.pend = [p] → p.src = .mma op.num →
      Leads (exec (.mmaComplete core) s) fun t =>
        t = { s with thr := t.thr, core := t.core } ∧ (∀ m, m ≠ tid → t.th m = s.th m) ∧ (t.co core).muOut = rest ∧
        (t.th tid).gets p.dst p.vals ∧ (t.th tid).keepsBut x p.dst p.vals.length ∧ (t.th tid).pend = [] ∧
        (t.th tid).flag p.flag = x.flag p.flag - 1) ∧
    (∀ core op rest, (s.co core).mu = op :: rest → (∀ gk ∈ s.gangsOn core, ∀ j, j < 8 → ((s.gg gk).join j).issuing = false) →
      Leads (exec (.matrixUnitStart core) s)
        (CoreIs s · core { s.co core with mu := rest, muBusy := !rest.isEmpty, muOut := (s.co core).muOut ++ [op] })) ∧
    (∀ q pk r p, AnswersTo s q pk r → r.owner = .thread tid → AwaitsTag s tid pk.tag p →
      (pk.kind = 1 → p.w ≠ 0 → Leads (exec (.fabricResponseArrive ⟨q, pk⟩) s) fun t => Ended s t r ∧ MemSame s t ∧ (∀ m, m ≠ tid → t.th m = s.th m) ∧
        t.th tid = { x with pend := [{ p with src := .here, vals := loadWords p.w p.sx (leNat pk.data) }] } ∧ AckSent t pk) ∧
      (pk.kind = 8 → pk.opx % 2 = 1 → p.w = 0 → r.pk.dgdn = pk.sgdn → r.pk.kind ∈ [2, 3, 5, 6] → Leads (exec (.endToEndAck ⟨q, pk⟩) s) fun t =>
        Ended s t r ∧ MemSame s t ∧ (∀ m, m ≠ tid → t.th m = s.th m) ∧ t.th tid = { x with pend := [{ p with src := .here }] })) ∧
    (∀ q pk r p, (AnswersTo s q pk r ∨ (q = 33 ∧ pk.sgdn = s.gdn ∧ pk.dgdn = s.gdn ∧ s.fab.out = [r] ∧ r.pk.tag = pk.tag ∧ r.pk.seq = pk.seq)) →
      r.owner = .thread tid → AwaitsTag s tid pk.tag p → pk.kind = 9 →
      (∀ c, pk.opx = c → c ∉ [1, 2] → Leads (exec (.nakArrive ⟨q, pk⟩) s) fun t => Ended s t r ∧ MemSame s t ∧ (∀ m, m ≠ tid → t.th m = s.th m) ∧
        FabError t tid p (if c = 7 then p.fva else p.va) c) ∧
      (pk.opx = 1 → Leads (exec (.nakArrive ⟨q, pk⟩) s) fun t => Ended s t r ∧ MemSame s t ∧ FabError t tid p p.va 1 ∧
        Tbl.get 0 t.fab.inc (r.pk.dgdn % 2 ^ 10) = leNat (pk.data.take 1)) ∧
      (pk.opx = 2 → s.pkg.rsnd ≤ r.resends → Leads (exec (.nakArrive ⟨q, pk⟩) s) fun t => Ended s t r ∧ MemSame s t ∧ FabError t tid p p.va 4) ∧
      (pk.opx = 2 → r.resends < s.pkg.rsnd → Leads (exec (.nakArrive ⟨q, pk⟩) s) fun t => MemSame s t ∧ t.thr = s.thr ∧
        ∃ y ∈ t.fab.out, y.pk.tag = pk.tag ∧ y.pk.seq = pk.seq ∧ y.owner = r.owner ∧ y.resends = r.resends + 1 ∧ y.pk.data = r.pk.data)) ∧
    (∀ q pk, ForUs s q pk → pk.kind = 8 → pk.opx % 2 = 1 → (∀ r ∈ s.fab.out, ¬(r.pk.tag = pk.tag ∧ r.pk.seq = pk.seq)) →
      Leads (exec (.endToEndAck ⟨q, pk⟩) s) fun t => MemSame s t ∧ t.thr = s.thr ∧ t.fab.out = s.fab.out ∧
        ∀ r, r ∈ (Tbl.get {} t.fab.src (pk.sgdn % 2 ^ 10)).resp ↔
          r ∈ (Tbl.get {} s.fab.src (pk.sgdn % 2 ^ 10)).resp ∧ ¬(r.seq = pk.seq ∧ r.tag = pk.tag)) ∧
    (∀ tag r, s.fab.out = [r] → r.pk.tag = tag →
      (s.time < r.sentAt + s.pkg.dline * 1000 → exec (.sourceDeadline tag) s = .next s) ∧
      (r.sentAt + s.pkg.dline * 1000 ≤ s.time → s.time < r.sentAt + 2 * (s.pkg.dline * 1000) → r.pk.dgdn / 2 ^ 10 = s.pkg.pod →
        (s.pt (podPort s.pkg.member (r.pk.dgdn % 2 ^ 10))).lst = 2 → Leads (exec (.sourceDeadline tag) s) fun t =>
          t.fab.out = [{ r with probes := r.probes + 1 }] ∧ MemSame s t ∧ t.thr = s.thr ∧ ∃ port v out, t.fab.cust = s.fab.cust ++
            [{ pk := { r.pk with kind := 0, opx := 7, via := v, data := [] }, port, tries := 0, at' := s.time, out }]) ∧
      (r.sentAt + 2 * (s.pkg.dline * 1000) ≤ s.time →
        (∀ p, r.owner = .thread tid → AwaitsTag s tid tag p → Leads (exec (.sourceDeadline tag) s) fun t =>
          t.fab.out = [] ∧ MemSame s t ∧ FabError t tid p p.va 8) ∧
        (r.owner = .gov → Leads (exec (.sourceDeadline tag) s) fun t =>
          t = { s with fab := { s.fab with out := [], pintlost := min (s.fab.pintlost + 1) (2 ^ 32 - 1) } })))

/-- What an element operation leaves of its channel (R279, R280): a transfer leaves it with its last element. -/
def ElementDone (s t : State) (core ch n : Nat) (x : Xfer) : Prop :=
  ((t.co core).chan ch).xs = if x.done.length + 1 = x.tmpl.count then ((s.co core).chan ch).xs.drop 1
    else { x with done := x.done ++ [n] } :: ((s.co core).chan ch).xs.drop 1

/-- The object of a transfer, if it has one, lies apart from an element's bytes, and the element's delivery to it completes no phase. -/
def ObjectApart (s : State) (x : Xfer) (loc : Nat) : Prop :=
  ∀ l va, x.obj = some (l, va) → (l + 32 ≤ loc ∨ loc + x.tmpl.e ≤ l) ∧ (s.obj l).apend ≠ 0 ∧ s.inHst l 32 = false ∧ devLoc l = false ∧
    s.objWaits l va x.cid = false ∧ -2 ^ 39 ≤ (s.obj l).bpend - (x.tmpl.e : Nat)

/-- An element operation has written its bytes, and the transfer's object, if it has one, waits for so many bytes less (R279). -/
structure ElementWritten (s t : State) (core ch n : Nat) (x : Xfer) (loc : Nat) (bs : List Byte) : Prop where
  written : Holds t loc bs
  around : x.obj = none → MemBut s t loc x.tmpl.e
  object : ∀ l va, x.obj = some (l, va) → (t.obj l).bpend = (s.obj l).bpend - (x.tmpl.e : Nat) ∧ (t.obj l).ph = (s.obj l).ph ∧
    ∀ a, ¬(loc ≤ a ∧ a < loc + x.tmpl.e) → ¬(l ≤ a ∧ a < l + 32) → t.byte a = s.byte a
  threads : t.thr = s.thr
  channel : ElementDone s t core ch n x

/-- The entries of a context's tables that map a page (R262): the one at which its walk ends, or the 32 of a 2 MiB page. -/
def entriesAt (a : Nat) (l3 : Bool) (ps : Nat) : List Nat := if l3 = true ∧ ps = 1 then (upto 32).map fun i => a + 8 * i else [a]

/-- An entry with its frame switched, when it maps the page of a record (R264). -/
def switched (h : Held) (e : DWord) : Nat :=
  if pteV e ∧ pteKind e = 1 ∧ pteFrame e = pteFrame h.pte then e.toNat - pteFrame e + h.newFrame else e.toNat

/-- The frame of a page lies in this device's memory, and its new one too, outside the held-state table (R264). -/
structure CopiesFrame (s : State) (h : Held) : Prop where
  mem : Memory.wf s.mem = true
  kind : pteKind h.pte = 1
  space : s.inHst h.newFrame (psBytes h.ps) = false
  top : h.newFrame + psBytes h.ps ≤ hbmTop

/-- R263, R264, R278 to R284: an element of a load goes to its place in scratchpad, or its fill; an element of a store goes to memory; the object
has it delivered; one that fails makes the channel Faulted; the aperture starts a transfer for a Running context, reports why it does not, and
cancels; a migration copies the frame with its marks and switches the entries of the context that maps it; waiters follow it, and the writes that
waited proceed in their order (that a wait for an object follows its frame, and what waits: log 68; that a cancel leaves transfers that wait in
their groups: log 106). -/
def Obligations.EngineEvents : Prop :=
  ∀ (s : State),
    (∀ core ch n x, ch < 4 → ((s.co core).chan ch).xs.head? = some x → ((s.co core).chan ch).faulted = false → n < x.tmpl.count →
      n ∉ x.done → x.copy = none →
      (∀ y l s1, x.store = false → ObjectApart s x (x.spadLoc n) → x.inside n = true →
        s.engAcs x.cid (coreDie core) (x.global (x.coords n)) true false = (.ok y (.loc l), s1) → s1.poisoned l x.tmpl.e = false →
        s.inHst (x.spadLoc n) x.tmpl.e = false → Leads (exec (.btuElement core ch n) s) fun t =>
          ElementWritten s t core ch n x (x.spadLoc n) (s.bytes l x.tmpl.e)) ∧
      (x.store = false → ObjectApart s x (x.spadLoc n) → x.inside n = false → x.tmpl.edge = 0 → s.inHst (x.spadLoc n) x.tmpl.e = false →
        Leads (exec (.btuElement core ch n) s) fun t =>
          ElementWritten s t core ch n x (x.spadLoc n) (List.replicate x.tmpl.e 0)) ∧
      (∀ y l s1, x.store = true → ObjectApart s x l → x.inside n = true →
        s.engAcs x.cid (coreDie core) (x.global (x.coords n)) false true = (.ok y (.loc l), s1) → y.held.st ≠ 4 →
        s.inHst l x.tmpl.e = false → Leads (exec (.btuElement core ch n) s) fun t =>
          ElementWritten s t core ch n x l (s.bytes (x.spadLoc n) x.tmpl.e)) ∧
      (∀ c s1, x.obj = none → x.inside n = true →
        s.engAcs x.cid (coreDie core) (x.global (x.coords n)) (!x.store) x.store = (.fail c, s1) →
        Leads (exec (.btuElement core ch n) s) fun t => ((t.co core).chan ch).faulted = true ∧
          ((t.co core).chan ch).xs = ((s.co core).chan ch).xs)) ∧
    (∀ who core ch v k, ch < 4 → s.apAccepts who core = true → (s.co core).chan ch = k →
      ((s.cx (v.toNat / 2 ^ 56)).state ≠ 4 ∨ inMask (s.cx (v.toNat / 2 ^ 56)).dies (coreDie core) = false →
        Leads (exec (.apertureStart who core ch v) s)
          (CoreIs s · core ((s.co core).modChan ch fun k => { k with lasterr := 1, treason := 0 }))) ∧
      (∀ cid tm s1, v.toNat / 2 ^ 56 = cid → (s.cx cid).state = 4 → inMask (s.cx cid).dies (coreDie core) = true → k.xs.length < 16 →
        (s.apStat core ch 0 0).engTmpl cid (coreDie core) (v.toNat % 64) = (.ok (some tm), s1) →
        k.bar.toNat % 2 ^ 56 = 0 → tm.reason (v.getLsbD 8) = none →
        tm.spadOk (k.spad.toNat % 2 ^ 19) = true → k.spad.toNat % 2 ^ 19 + tm.foot ≤ 393216 →
        Leads (exec (.apertureStart who core ch v) s) fun t =>
          MemSame s t ∧ t.thr = s.thr ∧ ((t.co core).chan ch).lasterr = 0 ∧ ∃ x, ((t.co core).chan ch).xs = k.xs ++ [x] ∧ x.cid = cid ∧
            x.tmpl = tm ∧ x.store = v.getLsbD 8 ∧ x.tid = none ∧ x.obj = none ∧ x.done = [] ∧ x.c = k.spad.toNat % 2 ^ 19 ∧
            x.base = 2 ^ 52 + core * 2 ^ 30) ∧
      (∀ cid, v.toNat / 2 ^ 56 = cid → (s.cx cid).state = 4 → inMask (s.cx cid).dies (coreDie core) = true → 16 ≤ k.xs.length →
        Leads (exec (.apertureStart who core ch v) s)
          (CoreIs s · core ((s.co core).modChan ch fun k => { k with lasterr := 2, treason := 0 }))) ∧
      (Leads (exec (.apertureCancel who core ch v) s) fun t => ((t.co core).chan ch).xs = [] ∧ ((t.co core).chan ch).faulted = false ∧
        ((t.co core).chan ch).lasterr = 0 ∧ ((∀ x ∈ k.xs, x.obj = none) → MemSame s t))) ∧
    (∀ asid page base h, s.heldOf asid page = some (base, h) → h.st = 3 →
      (Leads (exec (.migrateSwitch asid page) s) fun t =>
        (∃ pre post, t.agenda = pre ++ h.waits ++ post ++ s.agenda ∧ ∀ m ∈ pre ++ post, ∃ r, m = .redirect r) ∧
        (∀ m, (t.th m).keepsRegs (s.th m) ∧ (t.th m).pc = (s.th m).pc ∧ (t.th m).st = (s.th m).st) ∧
        (Tbl.wf {} s.ctx = true → ∀ c, (t.cx c).pbusy = ((s.cx c).pbusy && (t.migrating (s.cx c).asid (s.cx c).pgpage.1 ||
          t.pageInUse (s.cx c).asid (s.cx c).pgpage.1 (s.cx c).pgpage.2)))) ∧
      (h.prev ≠ 1 ∨ h.handle ≠ 0 → Leads (exec (.migrateSwitch asid page) s) fun t =>
        Tbl.get {} t.held (heldKey asid base) =
          { h with st := h.prev, pte := withFrame h.pte h.newFrame, newFrame := 0, prev := 0, waits := [] }) ∧
      (∀ n l ph, pteKind h.pte = 1 → (s.th n).wait = .barrier (pteFrame h.pte + l) ph → l < psBytes h.ps →
        Leads (exec (.migrateSwitch asid page) s) fun t => (t.th n).wait = .barrier (h.newFrame + l) ph) ∧
      (CopiesFrame s h → (∀ x ∈ s.ctx, x.2.asid ≠ asid) → Leads (exec (.migrateSwitch asid page) s) fun t =>
        MemBut s t h.newFrame (psBytes h.ps) ∧ (∀ k, k < psBytes h.ps → t.byte (h.newFrame + k) = s.byte (pteFrame h.pte + k)) ∧
        ∀ k ∈ s.poison, inFrame (pteFrame h.pte) (psBytes h.ps) k = true → k - pteFrame h.pte / 32 + h.newFrame / 32 ∈ t.poison) ∧
      (∀ x a l3, CopiesFrame s h → s.ctx.filter (fun y => y.2.asid == asid) = [x] → x.2.v = true →
        (s.copyFrame h).walkEnd x.2.root base = (a, l3) →
        (∀ e ∈ entriesAt a l3 h.ps, s.inHst e 8 = false ∧ (e + 8 ≤ h.newFrame ∨ h.newFrame + psBytes h.ps ≤ e)) →
        Leads (exec (.migrateSwitch asid page) s) fun t =>
          (∀ k, k < psBytes h.ps → t.byte (h.newFrame + k) = s.byte (pteFrame h.pte + k)) ∧
          (∀ e ∈ entriesAt a l3 h.ps, Holds t e (natLe 8 (switched h (.ofNat 64 (s.rd e 8))))) ∧
          ∀ y, ¬(h.newFrame ≤ y ∧ y < h.newFrame + psBytes h.ps) → (∀ e ∈ entriesAt a l3 h.ps, ¬(e ≤ y ∧ y < e + 8)) → t.byte y = s.byte y))

/-! ### Registers, pages, harts -/

/-- What an atomic operation of a hart stores (R210): the RISC-V operations, by the old value and the operand. -/
def hartNew (op w old x new : Nat) : Prop :=
  match op with
  | 0 => new = (old + x) % 2 ^ (8 * w)
  | 1 => new = x
  | 2 => ∀ k, new.testBit k = (old.testBit k && x.testBit k)
  | 3 => ∀ k, new.testBit k = (old.testBit k || x.testBit k)
  | 4 => ∀ k, new.testBit k = (old.testBit k != x.testBit k)
  | 5 => sextNat (8 * w) new = min (sextNat (8 * w) old) (sextNat (8 * w) x)
  | 6 => sextNat (8 * w) new = max (sextNat (8 * w) old) (sextNat (8 * w) x)
  | 7 => new = min old x
  | _ => new = max old x

/-- R12, R15, R16, R21, R23, R27, R66, R224, R245, R324, R338, R341, R351: a register write of another width is ignored; the base registers keep
their address bits; a command becomes its own step, the next one (log 2); a context's latched registers take writes while it is Free or Created; a
guest's write is dropped and logged; a counter that a read clears gives its value, and the mailbox buffer is read at its widths; and the writes with
a row of their own set their entry. R15, R210, R257: a hart's access of device space is that of the register; its load returns the bytes; its store
writes them; its atomic operation replaces the value and returns the old one; a load-reserve holds a reservation, and a store-conditional writes
when it is held, ends it, and returns whether it failed. R416: an access of a hart that finds another stored tag with its line marks the line's four
sectors and logs it, and changes no byte. (The harts' own registers are outside the model: log 15; that a refused `RRCTL` write stores its other
fields with `V` = 0: log 62; where a stored tag is found and by which polynomial: log 112.) -/
def Obligations.HostAccesses : Prop :=
  (∀ (s : State) (who : Who) (v : DWord),
      (∀ addr w, w ≠ 8 ∨ addr % 8 ≠ 0 → addr < hbmTop + 0x3000040 ∨ hbmTop + 0x3002000 ≤ addr → exec (.registerWrite who addr w v) s = .next s) ∧
      (whoHsm who = true →
        exec (.registerWrite who (hbmTop + 0x20) 8 v) s = .next { s with pkg := { s.pkg with qdbase := v.toNat % 2 ^ 52 / 2 ^ 16 * 2 ^ 16 } } ∧
        exec (.registerWrite who (hbmTop + 0x30) 8 v) s = .next { s with pkg := { s.pkg with hstbase := v.toNat % 2 ^ 52 / 2 ^ 24 * 2 ^ 24 } } ∧
        exec (.registerWrite who (hbmTop + 0x38) 8 v) s = .next { s with pkg := { s.pkg with mcbase := v.toNat % 2 ^ 52 / 2 ^ 21 * 2 ^ 21 } } ∧
        exec (.registerWrite who (hbmTop + 0x40) 8 v) s = .next { s with pkg := { s.pkg with enptbase := v.toNat % 2 ^ 52 / 2 ^ 12 * 2 ^ 12 } } ∧
        exec (.registerWrite who (hbmTop + 0x48) 8 v) s = .next { s with pkg := { s.pkg with twdog := v.toNat % 2 ^ 32 } }) ∧
      (whoGuest who = true → ∀ o ∈ [0x20, 0x30, 0x38, 0x40, 0x48],
        exec (.registerWrite who (hbmTop + o) 8 v) s = .next (s.ras 5 5 0 (hbmTop + o))) ∧
      (∀ cid, cid < 256 → whoHsm who = true →
        (∀ p ∈ [(1, Instr.ctxCreate), (2, .ctxBind), (3, .ctxEnable), (4, .ctxPreempt), (5, .ctxDisable), (6, .ctxUnbind), (7, .ctxDestroy)],
          v.toNat % 16 = p.1 → exec (.registerWrite who (ctxCtlAddr cid) 8 v) s =
            .next { s with acc := { who, idx := cid, val := v }, agenda := .event p.2 :: s.agenda }) ∧
        ((s.cx cid).state ≤ 1 → Leads (exec (.registerWrite who (ctxCtlAddr cid + 0x18) 8 v) s)
          (CtxIs s · cid { s.cx cid with himg := v.toNat % 2 ^ 56 })) ∧
        (2 ≤ (s.cx cid).state → Leads (exec (.registerWrite who (ctxCtlAddr cid + 0x18) 8 v) s) (CtxIs s · cid { s.cx cid with cstat := 2 }))) ∧
      (whoAdmin who = true →
        exec (.rcCounterRead who ⟨hbmTop + 0xD0, 8⟩) s = .next { s with bus := .ofNat 64 s.pkg.badfmt, pkg := { s.pkg with badfmt := 0 } } ∧
        exec (.rcCounterRead who ⟨hbmTop + 0xF0, 8⟩) s = .next { s with bus := .ofNat 64 s.pkg.full, pkg := { s.pkg with full := 0 } } ∧
        (∀ d, d < 4 → Leads (exec (.rcCounterRead who ⟨hbmTop + 0x80 + 8 * d, 8⟩) s) fun t =>
          t = { s with die := t.die, bus := .ofNat 64 (s.di d).droopcnt } ∧ t.di d = { s.di d with droopcnt := 0 } ∧ ∀ k, k ≠ d → t.di k = s.di k) ∧
        (∀ p, p < 32 → Leads (exec (.rcCounterRead who ⟨portAddr p + 0x18, 8⟩) s) fun t =>
          t.bus = .ofNat 64 (s.pt p).rpl ∧ t.pt p = { s.pt p with rpl := 0 } ∧ ∀ k, k ≠ p → t.pt k = s.pt k) ∧
        (∀ n, n < 96 → Leads (exec (.homecfgWrite who n v) s) fun t =>
          t = { s with pkg := { s.pkg with homecfg := t.pkg.homecfg } } ∧ ∀ k, Tbl.get 15 t.pkg.homecfg k =
            if k / 16 = n ∧ v.toNat / 2 ^ (4 * (k % 16)) % 16 ∈ [1, 2, 4, 8, 3, 12, 15] then v.toNat / 2 ^ (4 * (k % 16)) % 16
            else Tbl.get 15 s.pkg.homecfg k) ∧
        (∀ p x, p < 32 → s.pt p = x →
          (v.getLsbD 0 = true → Leads (exec (.portEnable who p v) s) fun t =>
            t = { s with fab := { s.fab with port := t.fab.port } } ∧ (∀ k, k ≠ p → t.pt k = s.pt k) ∧
            t.pt p = if x.en then x
              else { x with en := true, fails := 0, consec := 0, lst := if p < (podNeighbours s.pkg.member).length then 1 else 0 }) ∧
          (v.getLsbD 0 = false → Leads (exec (.portEnable who p v) s) fun t =>
            t.pt p = { x with en := false, lst := 0, consec := 0, replays := [] } ∧ t.mem = s.mem ∧ t.thr = s.thr ∧
            ((∀ c ∈ s.fab.cust, c.port ≠ p) →
              t = { s with fab := { s.fab with port := t.fab.port } } ∧ ∀ k, k ≠ p → t.pt k = s.pt k)))) ∧
      (∀ n i w, mbxOf who = some n → w ∈ [1, 2, 4, 8] → i % w = 0 → i + w ≤ 0x1FC0 →
        exec (.rcCounterRead who ⟨hbmTop + 0x3000040 + i, w⟩) s = .next { s with bus := .ofNat 64 (leNat ((s.mbx n).bytes i w)) }) ∧
      (whoHsm who = true →
        (∀ cid n, n < 8 → Leads (exec (.rrctlWrite who cid n v) s) fun t => ∃ x : DWord,
          CtxIs s t cid { s.cx cid with rrctl := (t.cx cid).rrctl } ∧
          (∀ k, k < 8 → (t.cx cid).rrctl.getD k 0 = if k = n then x else (s.cx cid).rrctl.getD k 0) ∧
          x.toNat % 2 ^ 15 = v.toNat / 2 ^ 13 % 4 * 2 ^ 13 + v.toNat / 2 ^ 8 % 8 * 2 ^ 8 + v.toNat % 16 ∧
          x.toNat / 2 ^ 16 = v.toNat / 2 ^ 16 % 2 ^ 40 ∧
          (v.getLsbD 15 = false ∨ v.toNat / 2 ^ 16 % 2 ^ 40 ≤ ((s.cx cid).rrbase.getD n 0).toNat / 2 ^ 16 % 2 ^ 40 → x.getLsbD 15 = false) ∧
          (v.getLsbD 15 = true → ((s.cx cid).rrbase.getD n 0).toNat / 2 ^ 16 % 2 ^ 40 < v.toNat / 2 ^ 16 % 2 ^ 40 → v.toNat % 16 ≤ 8 →
            (∀ y ∈ (s.cx cid).rrctl, y.getLsbD 15 = false) → (∀ y ∈ s.ctx, y.1 ≠ cid → y.2.dies ≠ (s.cx cid).dies) → x.getLsbD 15 = true)) ∧
        (∀ d, d < 4 → (v.getLsbD 63 = true → 500 ≤ v.toNat / 2 ^ 48 % 2 ^ 11 → v.toNat / 2 ^ 48 % 2 ^ 11 ≤ 2000 →
            Leads (exec (.clklockWrite who d v) s) fun t => t = { s with die := t.die } ∧ (∀ k, k ≠ d → t.di k = s.di k) ∧
              t.di d = { s.di d with lk := true, lka := false, fmhz := v.toNat / 2 ^ 48 % 2 ^ 11, relock := true }) ∧
          (v.getLsbD 63 = true → v.toNat / 2 ^ 48 % 2 ^ 11 < 500 ∨ 2000 < v.toNat / 2 ^ 48 % 2 ^ 11 → exec (.clklockWrite who d v) s = .next s) ∧
          (v.getLsbD 63 = false → Leads (exec (.clklockWrite who d v) s) fun t => (∀ k, k ≠ d → t.di k = s.di k) ∧
            t.di d = if (s.di d).lk || (s.di d).lka
              then { s.di d with lk := false, lka := false, brk := 4, relock := true, fmhz := v.toNat / 2 ^ 48 % 2 ^ 11 }
              else { s.di d with fmhz := v.toNat / 2 ^ 48 % 2 ^ 11 })) ∧
        (∀ n, n < 4 → Leads (exec (.ingressKeyWrite who n v) s) fun t =>
          t = { s with pkg := { s.pkg with ingKeys := t.pkg.ingKeys } } ∧ ∀ k, Tbl.get [0, 0, 0, 0] t.pkg.ingKeys k =
            if k = s.pkg.ingKsel then (Tbl.get [0, 0, 0, 0] s.pkg.ingKeys k).set n v else Tbl.get [0, 0, 0, 0] s.pkg.ingKeys k)) ∧
      (whoF who = true → Leads (exec (.priceDataWrite who v) s) fun t =>
        t = { s with pkg := { s.pkg with price := t.pkg.price } } ∧ ∀ k, Tbl.get 0 t.pkg.price k =
          if k = s.pkg.priceIdx then v.setWidth 32 else Tbl.get 0 s.pkg.price k) ∧
      (whoF who = false → whoGuest who = false → exec (.priceDataWrite who v) s = .next s)) ∧
  (∀ (s : State) (h a w : Nat) (md : HMode) (v : DWord), hbmTop < a + w → inPcie a = false →
    exec (.hartMemoryAccess h ⟨md, .load a w⟩) s = exec (.rcCounterRead (.hart h md) ⟨a, w⟩) s ∧
    exec (.hartMemoryAccess h ⟨md, .store a w v⟩) s = exec (.registerWrite (.hart h md) a w v) s) ∧
  (∀ (s : State) (h a w : Nat) (md : HMode) (v : DWord), w ∈ [1, 2, 4, 8] → a + w ≤ hbmTop → s.poisoned a w = false → s.tagBad (a / 128) = false →
      exec (.hartMemoryAccess h ⟨md, .load a w⟩) s = .next { s with bus := .ofNat 64 (s.rd a w) } ∧
      (Leads (exec (.hartMemoryAccess h ⟨md, .lr a w⟩) s) fun t =>
        t = { s with hres := t.hres, bus := .ofInt 64 (sextNat (8 * w) (s.rd a w)) } ∧ Tbl.get none t.hres h = some (a, w) ∧
        ∀ k, k ≠ h → Tbl.get none t.hres k = Tbl.get none s.hres k) ∧
      (s.inHst a w = false →
        (Leads (exec (.hartMemoryAccess h ⟨md, .store a w v⟩) s) fun t =>
          Holds t a (natLe w v.toNat) ∧ MemBut s t a w ∧ t.thr = s.thr ∧ t.ctx = s.ctx ∧ t.bus = s.bus) ∧
        (∀ op, op ≤ 8 → Leads (exec (.hartMemoryAccess h ⟨md, .amo op a w v⟩) s) fun t =>
          hartNew op w (s.rd a w) (v.toNat % 2 ^ (8 * w)) (t.rd a w) ∧ MemBut s t a w ∧ t.thr = s.thr ∧ t.ctx = s.ctx ∧
          t.bus = .ofInt 64 (sextNat (8 * w) (s.rd a w))) ∧
        (∀ b n, Tbl.get none s.hres h = some (b, n) → b ≤ a → a + w ≤ b + n → Leads (exec (.hartMemoryAccess h ⟨md, .sc a w v⟩) s) fun t =>
          Holds t a (natLe w v.toNat) ∧ MemBut s t a w ∧ t.thr = s.thr ∧ t.bus = 0 ∧ Tbl.get none t.hres h = none)) ∧
      ((∀ b n, Tbl.get none s.hres h = some (b, n) → a < b ∨ b + n < a + w) → Leads (exec (.hartMemoryAccess h ⟨md, .sc a w v⟩) s) fun t =>
        t = { s with hres := t.hres, bus := 1 } ∧ Tbl.get none t.hres h = none)) ∧
  (∀ (s : State) (h a w : Nat) (md : HMode) (x : BitVec 32), a + w ≤ hbmTop → Tbl.get none s.tags (a / 128) = some x →
    x ≠ crc32c (s.bytes (a / 128 * 128) 128) → s.mg.ras.length < 4096 → Leads (exec (.hartMemoryAccess h ⟨md, .load a w⟩) s) fun t =>
      MemSame s t ∧ t.thr = s.thr ∧ (∀ j, j < 4 → 4 * (a / 128) + j ∈ t.poison) ∧ Tbl.get none t.tags (a / 128) = none ∧
      s.mg.ras.length < t.mg.ras.length)

/-- A page command, by the access in hand, finds a page at its address. -/
structure PageAt (s : State) (cid : Nat) (p : Pg) : Prop where
  table : Tbl.wf {} s.ctx = true
  writer : whoAdmin s.acc.who = true ∧ s.acc.idx = cid
  idle : (s.cx cid).pbusy = false
  found : s.findPage cid p.base = .ok p
  first : p.base = (s.cx cid).pgva.toNat / 2 ^ 16 * 2 ^ 16 % 2 ^ 56

/-- The commands of a page. -/
def pageCommands : List Instr :=
  [.pgPin, .pgUnpin, .pgShadow, .pgUnshadow, .pgMigrate, .pgUnmap, .pgTag, .pgUnpoison, .pgResolve, .pgForceunmap, .pgQuery]

/-- The record of a page is this one; one of a Mapped page with no tag and no marks is none (R262).  No other page's record, thread or byte of
memory differs. -/
def RecordIs (s t : State) (cid : Nat) (p : Pg) (h : Held) : Prop :=
  let key := heldKey (s.cx cid).asid p.base
  Tbl.get {} t.held key = (if h.st = 1 ∧ h.handle = 0 ∧ s.marks h.pte = [] then {} else h) ∧
  (∀ k, k ≠ key → Tbl.get {} t.held k = Tbl.get {} s.held k) ∧ t.thr = s.thr ∧
  ∀ k, k ≠ cid → t.cx k = { s.cx k with pbusy := (t.cx k).pbusy }

/-- A command has run (R262, R263): its status is 0, and it is in progress while its page is Migrating or an access that the page translated is not
performed. -/
def CommandRan (s t : State) (cid : Nat) (p : Pg) (traceWord : Nat := (s.cx cid).traceWord) : Prop :=
  let c := s.cx cid
  t.cx cid = { c with pstat := 0, pgpage := (p.base, psBytes p.h.ps), traceWord
                      pbusy := t.migrating c.asid p.base || t.pageInUse c.asid p.base (psBytes p.h.ps) }

/-- The frame of `PG_PA` fits a page of a size (R262). -/
def FrameFits (s : State) (cid ps : Nat) : Prop :=
  (s.cx cid).pgpa.toNat / 2 ^ 16 % 2 ^ 36 * 2 ^ 16 % psBytes ps = 0 ∧
  (s.cx cid).pgpa.toNat / 2 ^ 16 % 2 ^ 36 * 2 ^ 16 + psBytes ps ≤ hbmTop

/-- What the samplers of a context hold of its trace header once a page is Unmapped (R265): what stood there, if the page held it. -/
def keptWord (s : State) (cid : Nat) (p : Pg) : Nat :=
  let c := s.cx cid
  if c.tracebase ≠ 0 ∧ p.base ≤ c.tracebase ∧ c.tracebase < p.base + psBytes p.h.ps then (s.traceCtl cid).getD c.traceWord else c.traceWord

/-- A page is Unmapped (R262, R248): its table entries are not valid, whether well formed or not, and its record and the locks of its lines are gone. -/
def Unmapped (s t : State) (cid : Nat) (p : Pg) : Prop :=
  CommandRan s t cid p (keptWord s cid p) ∧ t.thr = s.thr ∧ Tbl.get {} t.held (heldKey (s.cx cid).asid p.base) = {} ∧
  (pteKind p.pte = 1 → pteFrame p.pte < hbmTop → ∀ l, l ∈ t.locks ↔ l ∈ s.locks ∧
    ¬(l.cid = cid ∧ pteFrame p.pte ≤ 128 * l.line ∧ 128 * l.line < pteFrame p.pte + psBytes (ptePs p.pte))) ∧
  ∀ a l3, s.walkEnd (s.cx cid).root p.base = (a, l3) → (∀ e ∈ entriesAt a l3 p.h.ps, s.inHst e 8 = false) →
    (∀ e ∈ entriesAt a l3 p.h.ps, t.rd e 8 = s.rd e 8 / 2 * 2) ∧
    ∀ y, (∀ e ∈ entriesAt a l3 p.h.ps, ¬(e ≤ y ∧ y < e + 8)) → t.byte y = s.byte y

/-- R256, R261 to R265: each page command, in each state of its page, ends with its status, and has its effect when that is 0; it is in progress
until no access through the page's former state is left, and a migration until its switch. (That the frame of a migration is not checked: log 101;
that a page of a bound context's save area, trace buffer or image is not unpinned: log 100; log 68.) -/
def Obligations.PageCommands : Prop :=
  ∀ (s : State) (cid : Nat) (c : Ctx), s.cx cid = c →
    (∀ p, PageAt s cid p →
      let ends (i : Instr) (st : Nat) := Leads (exec i s) (CtxIs s · cid { c with pstat := st })
      let writes (i : Instr) (h : Held) := Leads (exec i s) fun t => CommandRan s t cid p ∧ RecordIs s t cid p h ∧ MemSame s t
      let kept := s.boundPage c.asid p.base (psBytes p.h.ps)
      (p.isRec = true ∨ s.held.length < 262144 →
        (p.h.st = 1 → writes .pgPin { p.h with st := 2 }) ∧ (p.h.st ∉ [1, 2] → ends .pgPin 2) ∧
        (p.h.st = 2 → Leads (exec .pgPin s) fun t => CommandRan s t cid p ∧ t.held = s.held ∧ MemSame s t ∧ t.thr = s.thr) ∧
        (p.h.st = 1 → FrameFits s cid p.h.ps →
          writes .pgShadow { p.h with st := 4, shadow := c.pgpa.toNat / 2 ^ 16 % 2 ^ 36 * 2 ^ 16, written := [] }) ∧
        (p.h.st = 1 → ¬FrameFits s cid p.h.ps → ends .pgShadow 5) ∧ (p.h.st ≠ 1 → ends .pgShadow 2) ∧
        (p.h.st ∈ [1, 5] →
          writes .pgMigrate { p.h with st := 3, newFrame := c.pgpa.toNat / 2 ^ 16 % 2 ^ 36 * 2 ^ 16, prev := p.h.st }) ∧
        (p.h.st ∈ [2, 4, 6] → ends .pgMigrate 1) ∧ (p.h.st = 3 → ends .pgMigrate 2) ∧
        writes .pgTag { p.h with handle := c.pgarg.toNat % 2 ^ 24 }) ∧
      (p.h.st = 2 → kept = false → writes .pgUnpin { p.h with st := 1 }) ∧ (p.h.st = 2 → kept = true → ends .pgUnpin 1) ∧
      (p.h.st ≠ 2 → ends .pgUnpin 2) ∧
      (p.h.st = 4 → p.h.written = [] ∨ c.pgarg.getLsbD 24 = true → writes .pgUnshadow { p.h with st := 1, shadow := 0, written := [] }) ∧
      (p.h.st = 4 → p.h.written ≠ [] → c.pgarg.getLsbD 24 = false → ends .pgUnshadow 1) ∧ (p.h.st ≠ 4 → ends .pgUnshadow 2) ∧
      (p.h.st ∉ [2, 3, 4] → Leads (exec .pgUnmap s) (Unmapped s · cid p)) ∧
      (p.h.st ∈ [2, 3, 4] → ends .pgUnmap 1) ∧
      (s.marks p.pte = [] → ends .pgUnpoison 2) ∧
      (s.marks p.pte ≠ [] → s.poison.Nodup → (∀ k ∈ s.marks p.pte, s.inHst (32 * k) 32 = false) → Leads (exec .pgUnpoison s) fun t =>
        CommandRan s t cid p ∧ t.thr = s.thr ∧ (∀ k, k ∈ t.poison ↔ k ∈ s.poison ∧ k ∉ s.marks p.pte) ∧
        (Tbl.wf {} s.held = true → ∀ k h, Tbl.get {} s.held k = h → h.st = 5 → (∀ m ∈ s.marks h.pte, m ∈ s.marks p.pte) →
          (Tbl.get {} t.held k).st ≠ 5) ∧
        ∀ a, t.byte a = if a / 32 ∈ s.marks p.pte then 0 else s.byte a) ∧
      ((∃ h, s.acc.who = .hart h .m) ∨ s.acc.who = .mc → Leads (exec .pgForceunmap s) (Unmapped s · cid p)) ∧
      ((∃ h, s.acc.who = .hart h .hs) → ends .pgForceunmap 6) ∧
      Leads (exec .pgQuery s) (CtxIs s · cid { c with
        pstat := 0, pgarg := .ofNat 64 (p.h.st * 2 ^ 32 + p.h.handle)
        pgpa := .ofNat 64 (match pteKind p.pte with | 1 => pteFrame p.pte | 2 => pteRframe p.pte | _ => 0) })) ∧
    (whoAdmin s.acc.who = true → s.acc.idx = cid →
      (c.pbusy = true → ∀ i ∈ pageCommands, Leads (exec i s) (CtxIs s · cid { c with pstat := 1 })) ∧
      (c.pbusy = false → s.findPage cid (c.pgva.toNat / 2 ^ 16 * 2 ^ 16 % 2 ^ 56) = .error .absent →
        (∀ i ∈ [Instr.pgPin, .pgUnpin, .pgShadow, .pgUnshadow, .pgMigrate, .pgUnmap, .pgTag, .pgUnpoison, .pgForceunmap],
          Leads (exec i s) (CtxIs s · cid { c with pstat := 3 })) ∧
        Leads (exec .pgQuery s) (CtxIs s · cid { c with pstat := 0, pgpa := 0, pgarg := 0 })) ∧
      (c.pbusy = false → s.findPage cid (c.pgva.toNat / 2 ^ 16 * 2 ^ 16 % 2 ^ 56) = .error .malformed →
        ∀ i ∈ pageCommands, i ≠ .pgResolve → Leads (exec i s) (CtxIs s · cid { c with pstat := 7 })) ∧
      (c.pbusy = false → s.faults = [] → Leads (exec .pgResolve s) (CtxIs s · cid { c with pstat := 0 })) ∧
      (∀ f m va, c.pbusy = false → s.faults = [f] → f.cid = cid → f.token = c.pgarg.toNat / 2 ^ 32 → f.grp.members = [m] →
        s.resident m = true → (s.th m).st = .stalled → (s.th m).token = some f.token →
        (c.pgarg.getLsbD 25 = false → Leads (exec .pgResolve s) fun t =>
          t.faults = [] ∧ t.th m = { s.th m with token := none } ∧ (t.co f.core).replay = (s.co f.core).replay ++ [{ f.grp with replays := f.grp.replays + 1 }] ∧ MemSame s t) ∧
        (c.pgarg.getLsbD 25 = true → f.absent = [(m, va)] → (s.th m).inh = false → Leads (exec .pgResolve s) fun t =>
          t.faults = [] ∧ MemSame s t ∧ (t.co f.core).replay = (s.co f.core).replay ∧
          Trapped (s.th m) (t.th m) (s.original m f.grp.pc) 0x09 (.ofNat 64 va) f.grp.pc))) ∧
    (whoGuest s.acc.who = true → s.acc.idx = cid → ∀ i ∈ pageCommands, exec i s = .next (s.ras 5 5 0 (hbmTop + 0x30000 + 0x40 * cid)))

/-! ### Power -/

/-- One die of a state is this one, and nothing else of the state differs. -/
def DieIs (s t : State) (d : Nat) (x : Die) : Prop := t = { s with die := t.die } ∧ t.di d = x ∧ ∀ k, k ≠ d → t.di k = s.di k

/-- A die whose clock lock, if it has one, is broken for a cause (R341). -/
def broken (d : Die) (cause : Nat) : Die := if d.lk || d.lka then { d with lk := false, lka := false, brk := cause, relock := true } else d

/-- What a core lacks of its capacity of 4,096 tokens at a tick, at most the refill cap; a core that is out of service or whose core cluster
wakes lacks nothing (R327, R329, R332). -/
def lacks (s : State) (c : Nat) : Int :=
  if (s.co c).retired = true ∨ (s.cc (c / 8)).waking = true then 0
  else max 0 (min (4096 * 256 - (s.co c).bucket) ((s.refillCap * 256 : Nat) : Int))

/-- R327 to R338, R341, R344, R417, R418: a relock ends and an accepted lock becomes active, which thermal step 4 or higher breaks; droop is counted
and breaks a lock; ballast's hints, scrub and self-test draw their tokens when they are offered and do nothing when they are not; the governor moves
`PSET` toward its target within its slew once each interval has begun; the thermal step moves by one toward its target, which is logged; the sensors
set that target, and at 115 degrees trip; and a tick refills the cores of a die that holds enough. (Measurements are operands of these steps: log
14; a self-test step draws 160 tokens: log 31; the order of draws: log 63; the sensors of the state: log 113.) -/
def Obligations.PowerEvents : Prop :=
  ∀ (s : State) (p : Pow), s.pow = p →
    (∀ d x, s.di d = x →
      (x.relock = false → exec (.clockRelockDone d) s = .next s) ∧
      (x.relock = true → x.lk = false ∨ x.lka = true → Leads (exec (.clockRelockDone d) s) (DieIs s · d { x with relock := false })) ∧
      (x.relock = true → x.lk = true → x.lka = false → Leads (exec (.clockRelockDone d) s) fun t =>
        t.di d = (let y := { x with relock := false, lka := true }; if 4 ≤ p.tstep then broken y 2 else y) ∧ (∀ k, k ≠ d → t.di k = s.di k) ∧
        t.thr = s.thr ∧ t.time = s.time) ∧
      (Leads (exec (.droopDetect d) s) fun t =>
        t.di d = broken { x with droop := true, droopcnt := min (x.droopcnt + 1) (2 ^ 32 - 1) } 1 ∧ (∀ k, k ≠ d → t.di k = s.di k) ∧
        t.thr = s.thr ∧ t.time = s.time) ∧
      Leads (exec (.droopRecover d) s) (DieIs s · d { x with droop := false }) ∧
      (∀ cid line n rest y s1, x.hints = (cid, line, n) :: rest → (s.hintPrice : Int) ≤ p.offered →
        s.xlat cid none d (line * 128) = (.ok y, s1) → pteR y.pte = true → y.held.st ≠ 6 → pteKind y.pte = 1 →
        Leads (exec (.ballastHintFetch d) s) fun t =>
          MemSame s t ∧ t.thr = s.thr ∧ t.di d = { x with hints := if n ≤ 1 then rest else (cid, line + 1, n - 1) :: rest } ∧
          t.pow = { p with bucket := p.bucket - s.hintPrice, offered := p.offered - s.hintPrice, drawn := p.drawn + s.hintPrice }) ∧
      (x.hints = [] ∨ p.offered < (s.hintPrice : Int) → exec (.ballastHintFetch d) s = .next s) ∧
      ((x.scrubs = [] → ∀ k, k < 4 → (s.di k).scrubs = []) → (s.scrubPrice : Int) ≤ p.offered - s.hintNeed → s.scrubPrice ≤ s.scrubLeft →
        Leads (exec (.ballastScrubLine d) s) fun t =>
        MemSame s t ∧ t.thr = s.thr ∧ t.pow.bucket = p.bucket - s.scrubPrice ∧ t.pow.offered = p.offered - s.scrubPrice ∧
        t.pow.drawn = p.drawn + s.scrubPrice ∧ t.pow.scrubbed = p.scrubbed + s.scrubPrice ∧
        (x.scrubs = [] → t.pow.scrubAt = (p.scrubAt + 1) % (768 * 2 ^ 30 / 128) ∧ t.di d = x ∧
          (∀ k, k ∈ t.soft ↔ k ∈ s.soft ∧ k / 4 ≠ p.scrubAt) ∧
          ((∃ k ∈ s.soft, k / 4 = p.scrubAt) → s.mg.ras.length < 4096 → s.mg.ras.length < t.mg.ras.length)) ∧
        ∀ cid line n rest, x.scrubs = (cid, line, n) :: rest → t.pow.scrubAt = p.scrubAt ∧
          t.di d = { x with scrubs := if n ≤ 1 then rest else (cid, line + 1, n - 1) :: rest }) ∧
      ((x.scrubs = [] ∧ ∃ k, k < 4 ∧ (s.di k).scrubs ≠ []) ∨ p.offered - s.hintNeed < (s.scrubPrice : Int) ∨ s.scrubLeft < s.scrubPrice → exec (.ballastScrubLine d) s = .next s)) ∧
    (∀ c ok, s.idleCore c = true → (s.co c).testing = false → 160 * 256 ≤ p.offered - ((s.hintNeed + s.scrubLeft : Nat) : Int) →
      Leads (exec (.selfTestStep c ok) s) fun t =>
        MemSame s t ∧ t.thr = s.thr ∧
        t.pow = { p with bucket := p.bucket - 160 * 256, offered := p.offered - 160 * 256, drawn := p.drawn + 160 * 256 } ∧
        t.co c = { s.co c with testing := ok, retired := (s.co c).retired || !ok } ∧ (∀ k, k ≠ c → t.co k = s.co k) ∧
        (ok = true → t.mg = s.mg) ∧ (ok = false → s.mg.ras.length < 4096 → t.mg.ras.length = s.mg.ras.length + 1)) ∧
    (∀ c ok, s.idleCore c = false → exec (.selfTestStep c ok) s = .next s) ∧
    (∀ u, s.time / 1000 ≤ p.k → exec (.governorInterval u) s = .next s) ∧
    (∀ u, p.k < s.time / 1000 → Leads (exec (.governorInterval u) s) fun t =>
      let tgt := max p.pmin (min (s.demandOf u) (min p.pmax (p.pmax * (8 - p.tstep) / 8)))
      let rise := min p.slew (p.sfree + ((p.intents.filter fun i => i.own && i.adm && decide (i.n ≤ p.k + 1 ∧ p.k + 1 < i.n + i.d)).map (·.rate)).sum)
      t.pow.k = p.k + 1 ∧ t.pow.demand = s.demandOf u ∧ t.pow.ball = p.drawn / 256000 ∧ t.pow.bshort = p.lost / 256000 ∧
      t.pow.pset = (if p.pset ≤ tgt then min tgt (p.pset + rise) else max tgt (p.pset - p.slew)) ∧ t.pow.fill = t.pow.pset - u ∧
      t.pow.drawn = 0 ∧ t.pow.lost = 0 ∧ t.pow.tstat = p.tstep ∧ t.pow.wakes = 0 ∧ t.thr = s.thr ∧ t.time = s.time ∧
      (∀ i ∈ t.pow.intents, p.k + 1 < i.n + i.d) ∧ ∀ c, (t.co c).charged = 0 ∧ (t.co c).stalled = 0 ∧
        (Tbl.wf {} s.core = true → (t.co c).bucket = (s.co c).bucket)) ∧
    (p.tstep ≠ p.tgtStep → p.stepAt + 100000 ≤ s.time → Leads (exec .thermalStepMove s) fun t =>
      t.pow = { p with tstep := if p.tstep < p.tgtStep then p.tstep + 1 else p.tstep - 1, stepAt := s.time } ∧ t.thr = s.thr ∧
      (t.pow.tstep < 4 → s.mg.ras.length < 4096 → t.mg.ras.length = s.mg.ras.length + 1) ∧
      ∀ d, d < 4 → t.di d = if 4 ≤ t.pow.tstep then broken (s.di d) 2 else s.di d) ∧
    (p.tstep = p.tgtStep ∨ s.time < p.stepAt + 100000 → exec .thermalStepMove s = .next s) ∧
    (∀ sn : Sensors, sn.charge.length = 4 → 4 ≤ sn.temps.length →
      ((∀ x ∈ sn.temps, x < 115 * 16) → Leads (exec (.sensorSample sn) s) fun t =>
        t = { s with die := t.die, pow := { p with tgtStep := t.pow.tgtStep }, mg := { s.mg with sensors := sn } } ∧
        (∀ d, d < 4 → t.di d = { s.di d with charge := sn.charge.getD d 0 }) ∧
        ((∀ k, k < 4 → sn.temps.getD k 0 < 95 * 16) → t.pow.tgtStep = 0) ∧
        ∀ k, k < 4 → 95 * 16 ≤ sn.temps.getD k 0 → (∀ j, j < 4 → sn.temps.getD j 0 ≤ sn.temps.getD k 0) →
          t.pow.tgtStep = min 7 (1 + (sn.temps.getD k 0 - 95 * 16) / 32)) ∧
      ((∃ x ∈ sn.temps, 115 * 16 ≤ x) → Leads (exec (.sensorSample sn) s) fun t =>
        t.mg.thermtrip = true ∧ t.mg.boot = .off ∧ t.mem = [] ∧ t.thr = [] ∧ t.ctx = [] ∧ t.mg.flash = s.mg.flash)) ∧
    (∀ d, d < 4 → (∀ k, k < 4 → (s.di k).bucket ≤ 65536 * 256) → (((upto 80).map fun i => lacks s (80 * d + i)).sum : Int) ≤ (s.di d).bucket →
      Leads (exec .bucketTick s) fun t => MemSame s t ∧ t.thr = s.thr ∧ t.time = s.time ∧
        ∀ i, i < 80 → (t.co (80 * d + i)).bucket = (s.co (80 * d + i)).bucket + lacks s (80 * d + i))

/-! ### Management -/

/-- A command waits in a mailbox, and none in the other. -/
abbrev Waits (s : State) (n opc : Nat) : Prop := n < 2 ∧ (s.mbx n).busy = true ∧ (s.mbx n).opc = opc ∧ (s.mbx (1 - n)).busy = false

/-- A debug command waits in a mailbox (R392). -/
abbrev WaitsDebug (s : State) (n sub : Nat) : Prop := Waits s n 5 ∧ (s.mbx n).arg = 0 ∧ (s.mbx n).bytes 0 1 = [.ofNat 8 sub]

/-- A mailbox has ended its command with a status and a reply (R413). -/
def Replied (s t : State) (n stat : Nat) (bs : List Byte) : Prop :=
  t.mbx n = { s.mbx n with busy := false, mstat := stat, rlen := bs.length, buf := bs ++ (s.mbx n).buf.drop bs.length } ∧
  ∀ k, k ≠ n → t.mbx k = s.mbx k

/-- A command that has ended and changed nothing but its mailbox. -/
def OnlyReplied (s t : State) (n stat : Nat) (bs : List Byte) : Prop :=
  Replied s t n stat bs ∧ t = { s with mg := { s.mg with mbx := t.mg.mbx, sel := n } }

/-- The ROM accepts an image (R409): its magic, the digest of its key, its signature, its version and its length. -/
def Accepts (s : State) (img : List Byte) : Prop :=
  imgNat img 0 4 = 0x57464E58 ∧ Config.shake256 ((img.drop 0x10).take 1952) = Config.fusedKeyDigest ∧
  Config.mldsaVerify ((img.drop 0x10).take 1952) (img.take 0x7B0 ++ (img.drop 0x2000).take (imgNat img 8 8)) ((img.drop 0x7B0).take 3309) = true ∧
  s.mg.minSvn ≤ imgNat img 4 4 ∧ 0x2000 + imgNat img 8 8 ≤ img.length

/-- Nothing runs and no memory, context or thread is held: what a loss of power leaves. -/
def Dark (t : State) : Prop := t.mem = [] ∧ t.thr = [] ∧ t.ctx = [] ∧ t.blk = [] ∧ t.q = [] ∧ t.held = [] ∧ t.agenda = []

/-- The stacks that the firmware accepts (R407): at each of the twelve positions one that trains, of 64 GiB, 2,048 bits and 10 Gb/s, all of one part
number. -/
def GoodStacks (xs : List Stack) : Prop :=
  ∃ part, ∀ i, i < 12 → xs[i]? = some { trains := true, gib := 64, bits := 2048, rate := 10, part }

/-- R69, R407, R409, R410, R418, R419: power-on boots an image that the ROM accepts on stacks that the firmware accepts, writes the package's
registers and enables its ports; it enters the recovery loader for another image, for a stack that is refused, which is logged, or when the recovery
strap is held; recovery writes an accepted image, in two steps (log 58), and then resets the device; a loss of power, and of SD0, leaves nothing
running, and 10 ms after SD0 is lost the 48 V stage asserts the fault pin (logs 57, 59). (How the stacks, and what the firmware writes, stand in the
state: log 58.) -/
def Obligations.PowerOnAndOff : Prop :=
  ∀ (s : State),
    (s.mg.boot = .off → s.mg.thermtrip = false → Leads (exec .powerOn s) fun t =>
      t.mg.boots = (s.mg.boots + 1) % 2 ^ 32 ∧ t.thr = s.thr ∧ t.mem = s.mem ∧
      (Accepts s s.mg.flash → s.mg.strap = false → t.mg.svn = imgNat s.mg.flash 4 4 ∧
        t.mg.m.getD 0 0 = Config.shake256 (s.mg.flash.take 0x2000 ++ (s.mg.flash.drop 0x2000).take (imgNat s.mg.flash 8 8)) ∧
        (GoodStacks s.mg.hbm → t.mg.boot = .running ∧ t.held = [] ∧ (∀ p, p < 32 → (t.pt p).en = true) ∧
          ∀ c, s.mg.cfg = some c →
            t.pkg.pod = c.devid.toNat / 2 ^ 10 % 2 ^ 10 ∧ t.pkg.member = c.devid.toNat % 2 ^ 10) ∧
        (¬GoodStacks s.mg.hbm → t.mg.boot = .recovery ∧ t.held = s.held ∧ t.fab = s.fab ∧
          (s.mg.ras.length < 4096 → t.mg.ras.length = s.mg.ras.length + 1))) ∧
      (¬Accepts s s.mg.flash ∨ s.mg.strap = true →
        t = { s with mg := { s.mg with boots := (s.mg.boots + 1) % 2 ^ 32, boot := .recovery } })) ∧
    (s.mg.boot ≠ .off ∨ s.mg.thermtrip = true → exec .powerOn s = .next s) ∧
    (∀ img, s.mg.boot = .recovery → s.mg.writing = none → Leads (exec (.recoveryImagePush img) s) fun t =>
      (Accepts s img → t = { s with mg := { s.mg with writing := some img }, agenda := s.agenda ++ [.event (.recoveryImagePush img)] }) ∧
      (¬Accepts s img → t = s)) ∧
    (∀ img bs, s.mg.boot = .recovery → s.mg.writing = some img → Leads (exec (.recoveryImagePush bs) s) fun t =>
      Dark t ∧ t.mg.flash = img ∧ t.mg.writing = none ∧ t.mg.boot = .off ∧ t.pkg.inc = (s.pkg.inc + 1) % 2 ^ 8) ∧
    (∀ bs, s.mg.boot ≠ .recovery → exec (.recoveryImagePush bs) s = .next s) ∧
    (Leads (exec .powerLoss s) fun t =>
      Dark t ∧ t.mg.thermtrip = false ∧ t.mg.boot = (if s.mg.boot = .outOfService then .outOfService else .off) ∧ t.mg.svn = s.mg.svn ∧
      t.mg.minSvn = s.mg.minSvn ∧ t.mg.pkeySet = false ∧ (s.mg.writing = none → t.mg.flash = s.mg.flash)) ∧
    (Leads (exec .sd0Loss s) fun t => Dark t ∧ t.mg.boot = .outOfService ∧ t.mg.fault = false ∧ t.mg.silent = some t.time ∧
      ∀ p, (t.pt p).lst = 0) ∧
    (∀ t0, s.mg.boot = .outOfService → s.agenda = [] → s.mg.silent = some t0 → s.mg.fault = false →
      (s.time < t0 + 10000000 → step s = .next { s with time := s.time + 1 }) ∧
      (t0 + 10000000 ≤ s.time → step s = exec .sidebandSilence s)) ∧
    exec .sidebandSilence s = .next { s with mg := { s.mg with fault := true } }

/-- R18, R390, R392, R393, R411 to R415, R417, R418: each command of a mailbox ends with its status and its reply, and has its effect; where both
mailboxes wait, the one not served last is served, a command that no step serves in its turn too.  (The layout of the replies of `VERSION`,
`RASREAD` and `SENSORS` is the model's: logs 45, 113; that `RECOVER` leaves memory, contexts and threads empty at once: log 60; a thread found in a
save area: log 61; what a halt posted on one of the other form leaves: log 72.) -/
def Obligations.MailboxCommands : Prop :=
  ∀ (s : State) (n : Nat) (x : Mbx), s.mbx n = x →
    let devid := natLe 8 (s.pkg.inc % 2 ^ 8 * 2 ^ 56 + (s.pkg.pod * 2 ^ 10 + s.pkg.member) % 2 ^ 20)
    (Waits s n 1 → Leads (exec .version s) (OnlyReplied s · n 0 (natLe 4 s.mg.svn ++ natLe 4 Config.romVersion.toNat ++ devid))) ∧
    (n < 2 → s.mg.sel = 1 - n → (∀ k, k < 2 → (s.mbx k).busy = true ∧ (s.mbx k).opc = 1) →
      Leads (exec .version s) (OnlyReplied s · n 0 (natLe 4 s.mg.svn ++ natLe 4 Config.romVersion.toNat ++ devid))) ∧
    (Waits s n 2 → Leads (exec .attest s) fun t => ∃ r, OnlyReplied s t n 0 (r ++ natLe 3309 (Config.mldsaSign r).toNat) ∧ (s.mg.m.length = 8 → r.length = 560) ∧
      r = x.bytes 0 32 ++ devid ++ natLe 4 s.mg.svn ++ natLe 4 s.mg.boots ++ s.mg.m.flatMap fun m => natLe 64 m.toNat) ∧
    (n = 1 → (Waits s n 3 → Leads (exec .extend s) (OnlyReplied s · n 5 [])) ∧
      (Waits s n 4 → Leads (exec .setpkey s) (OnlyReplied s · n 5 [])) ∧ (Waits s n 9 → Leads (exec .setpart s) (OnlyReplied s · n 5 []))) ∧
    (n = 0 → Waits s n 3 → 3 ≤ x.arg → x.arg ≤ 7 → Leads (exec .extend s) fun t => Replied s t n 0 [] ∧
      t = { s with mg := { s.mg with mbx := t.mg.mbx, sel := n, m := t.mg.m } } ∧ ∀ k, t.mg.m.getD k 0 =
        if k = x.arg then Config.shake256 (natLe 64 (s.mg.m.getD x.arg 0).toNat ++ x.bytes 0 64) else s.mg.m.getD k 0) ∧
    (n = 0 → Waits s n 3 → x.arg < 3 ∨ 7 < x.arg → Leads (exec .extend s) (OnlyReplied s · n 3 [])) ∧
    (n = 0 → Waits s n 4 → s.mg.pkeySet = false → s.mg.firstBind = false → Leads (exec .setpkey s) fun t => Replied s t n 0 [] ∧
      t = { s with mg := { s.mg with mbx := t.mg.mbx, sel := n, m := t.mg.m, pkey := x.bytes 0 1952, pkeySet := true } } ∧ ∀ k, t.mg.m.getD k 0 =
        if k = 2 then Config.shake256 (x.bytes 0 1952) else s.mg.m.getD k 0) ∧
    (n = 0 → Waits s n 4 → s.mg.pkeySet = true ∨ s.mg.firstBind = true → Leads (exec .setpkey s) (OnlyReplied s · n 4 [])) ∧
    (Waits s n 6 → Leads (exec .rasread s) (OnlyReplied s · n 0
      (natLe 8 s.mg.rasOver ++ ((s.mg.ras.drop x.arg).take 253).flatMap fun e => e.flatMap fun w => natLe 8 w.toNat))) ∧
    (Waits s n 7 → Leads (exec .sensors s) (OnlyReplied s · n 0 (((upto 20).map (fun i => s.mg.sensors.temps.getD i 0 / 16) ++
      [s.mg.sensors.volts, s.mg.sensors.amps] ++ (upto Config.rails.toNat).map (fun i => s.mg.sensors.rails.getD i 0) ++
      [((upto 4).map fun d => (s.di d).charge).sum]).flatMap (natLe 4 ·)))) ∧
    (∀ (v : DWord), v.toNat % 256 = 0 ∨ 9 < v.toNat % 256 → x.busy = false → n = 0 →
      ((s.mbx 1).busy = false ∨ s.mg.sel = 1 → Leads (exec (.registerWrite (.hart 0 .hs) (hbmTop + 0x3000000) 8 v) s) fun t =>
        (t.mbx 0).busy = false ∧ (t.mbx 0).mstat = 2 ∧ t.mbx 1 = s.mbx 1) ∧
      ((s.mbx 1).busy = true → s.mg.sel = 0 → Leads (exec (.registerWrite (.hart 0 .hs) (hbmTop + 0x3000000) 8 v) s) fun t =>
        (t.mbx 0).busy = true ∧ (t.mbx 0).opc = v.toNat % 256 ∧ t.mbx 1 = s.mbx 1)) ∧
    (n = 1 → s.mg.sel = 0 → x.busy = true → x.opc = 1 → (s.mbx 0).busy = true → (s.mbx 0).opc ∉ [1, 2, 3, 4, 5, 6, 7, 8, 9] →
      Leads (exec .version s) fun t => (t.mbx 1).busy = false ∧ (t.mbx 1).mstat = 0 ∧ (t.mbx 0).busy = false ∧ (t.mbx 0).mstat = 2) ∧
    (Waits s n 8 → n = 1 ∨ x.mmode = true → Leads (exec .recover s) fun t => Replied s t n 0 [] ∧ Dark t ∧ t.mg.boot = .recovery ∧
      t.mg.flash = s.mg.flash ∧ t.mg.ras = s.mg.ras) ∧
    (Waits s n 8 → n = 0 → x.mmode = false → Leads (exec .recover s) (OnlyReplied s · n 5 [])) ∧
    (n = 0 → Waits s n 9 → x.arg < 5 → (∀ y ∈ s.ctx, y.2.state < 3) → Leads (exec .setpart s) fun t => Replied s t n 0 [] ∧
      t = { s with mg := { s.mg with mbx := t.mg.mbx, sel := n }, pkg := { s.pkg with pmode := x.arg } }) ∧
    (n = 0 → Waits s n 9 → 5 ≤ x.arg → Leads (exec .setpart s) (OnlyReplied s · n 3 [])) ∧
    (n = 0 → Waits s n 9 → x.arg < 5 → s.pkg.pmode < 5 → x.arg ≠ s.pkg.pmode → (∃ y ∈ s.ctx, 3 ≤ y.2.state ∧ y.2.dies = 15) →
      Leads (exec .setpart s) (OnlyReplied s · n 1 [])) ∧
    (∀ ts hs, s.dbgNamed x = ts → (ts.filter fun t => (s.th t).st == .halted) = hs →
      (WaitsDebug s n 1 → ts = [] → Leads (exec .debugHalt s) (OnlyReplied s · n 0 (natLe 4 2 ++ natLe 4 0))) ∧
      (∀ tid, WaitsDebug s n 1 → ts = [tid] → (s.th tid).st = .ready → Leads (exec .debugHalt s) fun t =>
        Replied s t n 0 (natLe 4 0 ++ natLe 4 1) ∧ (∀ m, m ≠ tid → t.th m = s.th m) ∧ MemSame s t ∧
        t.th tid = { s.th tid with halt := some ((s.th tid).halt.getD true && (leNat (x.bytes 1 1)).testBit 0) }) ∧
      ((s.cx x.dbgCtx).state ∉ [5, 6] →
        (WaitsDebug s n 2 → hs ≠ [] → Leads (exec .debugResume s) fun t =>
          Replied s t n 0 (natLe 4 0 ++ natLe 4 hs.length) ∧ MemSame s t ∧
          ∀ m, t.th m = if m ∈ hs then { s.th m with st := .ready, wait := .none, stepping := false } else s.th m) ∧
        (WaitsDebug s n 2 → ts = [] → Leads (exec .debugResume s) (OnlyReplied s · n 0 (natLe 4 2 ++ natLe 4 0))) ∧
        (WaitsDebug s n 2 → ts ≠ [] → hs = [] → Leads (exec .debugResume s) (OnlyReplied s · n 0 (natLe 4 3 ++ natLe 4 0))) ∧
        (∀ tid, WaitsDebug s n 3 → (leNat (x.bytes 1 1)).testBit 1 = false → tid ∈ hs → (∀ m ∈ hs, tid ≤ m) →
          Leads (exec .debugStep1 s) fun t => Replied s t n 0 (natLe 4 0 ++ natLe 4 1) ∧ (∀ m, m ≠ tid → t.th m = s.th m) ∧ MemSame s t ∧
            t.th tid = { s.th tid with st := .ready, wait := .none, stepping := true })) ∧
      ((s.cx x.dbgCtx).state ∈ [5, 6] → ts ≠ [] →
        (WaitsDebug s n 2 → Leads (exec .debugResume s) (OnlyReplied s · n 0 (natLe 4 1 ++ natLe 4 0))) ∧
        (WaitsDebug s n 3 → (leNat (x.bytes 1 1)).testBit 1 = false → Leads (exec .debugStep1 s) (OnlyReplied s · n 0 (natLe 4 1 ++ natLe 4 0)))) ∧
      (WaitsDebug s n 4 → (leNat (x.bytes 1 1)).testBit 1 = false → ts.Nodup → (∀ a ∈ ts, ∀ b ∈ ts, a % 32 = b % 32 → a = b) →
        Leads (exec .debugStatus s) fun t => ∃ bs, OnlyReplied s t n 0 bs ∧ bs.length = 36 ∧ leNat (bs.take 4) = (if ts = [] then 2 else 0) ∧
          ∀ l, l < 32 → (∀ m ∈ ts, m % 32 = l → leNat ((bs.drop (4 + l)).take 1) =
              if (s.th m).st = .ready ∧ (s.th m).inh = false ∧ s.inGroup m = false ∧ s.flagWait m = true then 1 else (s.th m).code) ∧
            ((∀ m ∈ ts, m % 32 ≠ l) → leNat ((bs.drop (4 + l)).take 1) = 0xFF)) ∧
      (∀ sub ∈ [3, 4], WaitsDebug s n sub → (leNat (x.bytes 1 1)).testBit 1 = true →
        Leads (exec (if sub = 3 then .debugStep1 else .debugStatus) s) (OnlyReplied s · n 3 []))) ∧
    (∀ q, WaitsDebug s n 5 → s.mg.dbg.getD n {} = q → Leads (exec .debugEvents s) fun t =>
      Replied s t n 0 (natLe 4 0 ++ natLe 4 (min 126 (q.evs.length / 8)) ++ natLe 4 q.dropped ++
        (q.evs.take (8 * min 126 (q.evs.length / 8))).flatMap fun w => natLe 8 w.toNat) ∧
      t = { s with mg := { s.mg with mbx := t.mg.mbx, sel := n, dbg := t.mg.dbg } } ∧
      t.mg.dbg.getD n {} = { evs := q.evs.drop (8 * min 126 (q.evs.length / 8)), dropped := 0 } ∧
      ∀ k, k ≠ n → t.mg.dbg.getD k {} = s.mg.dbg.getD k {})

/-! ### The fabric and schedules -/

/-- What this device keeps for the source of a packet (R357). -/
abbrev srcOf (s : State) (pk : FabPkt) : SrcSt := Tbl.get {} s.fab.src (pk.sgdn % 2 ^ 10)

/-- A request for this device whose turn it is in the sequence of its source (R357), while the device serves requests (R359). -/
structure TurnOf (s : State) (p : Nat) (pk : FabPkt) : Prop where
  ours : ForUs s p pk
  serves : s.noService = false
  next : (srcOf s pk).next = none ∨ (srcOf s pk).next = some pk.seq
  seq : pk.seq < 2 ^ 16
  fresh : (∀ r ∈ (srcOf s pk).resp, r.seq ≠ pk.seq) ∧ (srcOf s pk).buf = []

/-- After a custody ACK a packet has been put in custody at a port, on some route, and sent if it need not wait (R354, R356). -/
def Sent (s t : State) (ack : Nat × FabPkt) (r : FabPkt) : Prop :=
  ∃ port v out, t.fab.cust = s.fab.cust ++ [{ pk := { r with via := v }, port, tries := 0, at' := s.time, out }] ∧
    t.fab.sent = s.fab.sent ++ ack :: if out then [(port, { r with via := v })] else []

/-- A request has been performed: it is taken into custody, its response is sent and kept, and the next request is expected (R357). -/
def Served (s t : State) (p : Nat) (pk r : FabPkt) : Prop :=
  Sent s t (ackOf p pk) r ∧
  srcOf t pk = { srcOf s pk with next := some ((pk.seq + 1) % 2 ^ 16), resp := (srcOf s pk).resp ++ [r] } ∧
  (∀ k, k ≠ pk.sgdn % 2 ^ 10 → Tbl.get {} t.fab.src k = Tbl.get {} s.fab.src k) ∧ t.thr = s.thr ∧ t.fab.out = s.fab.out

/-- R352 to R361, R365 to R367, R386: a request whose turn it is, is performed, answered, and its response kept; one that is not is kept until its
turn; one of an older incarnation of its source is dropped; one for another device goes on, or comes back as LINKDOWN; a device in a reset of rung 4
or above answers NOSVC; one that finds another stored tag is answered with code 3 (R416); nothing comes by a link that is not Up. A custody ACK
releases a packet, and one that waited for credit goes; a packet in custody too long is sent again, and then given up. Package time and the
interval's number follow the time root. (Logs 53 to 55 and 84 hold what the model chose; that packets for a Retraining link wait: log 104; that
package time is what TIME_SYNC carries: log 56; where a stored tag is found: log 112.) -/
def Obligations.FabricEvents : Prop :=
  ∀ (s : State),
    (∀ p pk, TurnOf s p pk →
      (∀ w, pk.kind = 0 → pk.opx = w → w ≤ 4 → s.tags = [] → s.fabCheck pk.pa (2 ^ w) = none → Leads (exec (.fabricRequestArrive ⟨p, pk⟩) s) fun t =>
        MemSame s t ∧ Served s t p pk (respTo s pk 1 0 (s.gdn * 2 ^ 28) (s.bytes pk.pa (2 ^ w)))) ∧
      (∀ w x, pk.kind = 0 → pk.opx = w → w ≤ 4 → pk.pa + 2 ^ w ≤ hbmTop → Tbl.get none s.tags (pk.pa / 128) = some x →
        x ≠ crc32c (s.bytes (pk.pa / 128 * 128) 128) → Leads (exec (.fabricRequestArrive ⟨p, pk⟩) s) fun t =>
          MemSame s t ∧ Served s t p pk (respTo s pk 9 3 0 []) ∧ ∀ j, j < 4 → 4 * (pk.pa / 128) + j ∈ t.poison) ∧
      (pk.kind = 2 → s.tags = [] → s.fabCheck pk.pa pk.data.length = none → s.inHst pk.pa pk.data.length = false →
        Leads (exec (.fabricRequestArrive ⟨p, pk⟩) s) fun t =>
          Holds t pk.pa pk.data ∧ MemBut s t pk.pa pk.data.length ∧ Served s t p pk (respTo s pk 8 1 0 [])) ∧
      (pk.kind = 4 → pk.opx / 16 % 16 = 0 → pk.atype % 16 = 3 → signalOf pk.pa = none → s.tags = [] → s.fabCheck pk.pa 8 = none → s.inHst pk.pa 8 = false →
        Leads (exec (.fabricRequestArrive ⟨p, pk⟩) s) fun t =>
          t.rd pk.pa 8 = (s.rd pk.pa 8 + leNat (pk.data.take 8)) % 2 ^ 64 ∧ MemBut s t pk.pa 8 ∧
          Served s t p pk (respTo s pk 1 0 (s.gdn * 2 ^ 28) (s.bytes pk.pa 8))) ∧
      (∀ c, pk.kind = 2 → s.tags = [] → s.fabCheck pk.pa pk.data.length = some c → Leads (exec (.fabricRequestArrive ⟨p, pk⟩) s) fun t =>
        MemSame s t ∧ Served s t p pk (respTo s pk 9 c 0 [])) ∧
      (∀ slot sig, pk.kind = 4 → pk.opx / 16 % 16 = 0 → pk.atype % 16 = 3 → signalOf pk.pa = some (slot, sig) → 2 ≤ (s.sl slot).st → (s.sl slot).st ≠ 7 →
        (∃ c ∈ (s.sl slot).comm, c.2.1 = pk.sgdn) → Leads (exec (.signalIncrementArrive ⟨p, pk⟩) s) fun t =>
          MemSame s t ∧ Served s t p pk (respTo s pk 1 0 (s.gdn * 2 ^ 28) (natLe 8 0)) ∧ (∀ k, k ≠ slot → t.sl k = s.sl k) ∧
          (t.sl slot).sig.getD sig 0 = min ((s.sl slot).sig.getD sig 0 + leNat (pk.data.take 8)) (2 ^ 32 - 1)) ∧
      (∀ slot sig, pk.kind = 4 → pk.opx / 16 % 16 = 0 → pk.atype % 16 = 3 → signalOf pk.pa = some (slot, sig) → (s.sl slot).st ∈ [0, 1, 7] →
        Leads (exec (.signalIncrementArrive ⟨p, pk⟩) s) fun t => MemSame s t ∧ t.slot = s.slot ∧ Served s t p pk (respTo s pk 9 5 0 [])) ∧
      (pk.kind = 7 → Leads (exec (.edgeqArrive ⟨p, pk⟩) s) fun t => MemSame s t ∧ Served s t p pk (respTo s pk 1 0 (s.gdn * 2 ^ 28)
        (let e := leNat (pk.data.take 8) % 2 ^ 48
         if (Tbl.get {} s.edges e).kind = 0 then natLe 32 0 else ((Tbl.get {} s.edges e).words e).flatMap (natLe 8 ·)))) ∧
      (∀ w, pk.kind = 6 → Leads (exec (.pintArrive ⟨p, w, pk⟩) s) fun t =>
        MemSame s t ∧ Served s t p pk (respTo s pk 8 1 0 []) ∧
        (s.pow.gid = 0 ∨ leNat ((pk.data.drop 14).take 2) ≠ s.pow.gid → t.pow = s.pow) ∧
        (s.pow.gid ≠ 0 → leNat ((pk.data.drop 14).take 2) = s.pow.gid → ∃ i, t.pow = { s.pow with intents := s.pow.intents ++ [i] } ∧
          i.n = leNat (pk.data.take 8) ∧ i.rate = leNat ((pk.data.drop 8).take 2) ∧ i.d = leNat ((pk.data.drop 10).take 2) ∧
          i.rank = leNat ((pk.data.drop 12).take 2) ∧ i.own = false ∧ (i.adm = true ↔ i.n ≤ s.pow.k + 2)))) ∧
    (∀ p (w : Wire) (pk : FabPkt) (h : Nat), pk.kind = 6 → 32 ≤ p → w.auth = true → w.len ≤ 9216 → w.udp = s.pkg.pintport → pk.data ≠ [] →
      leNat (pk.data.take 8) = h → (∀ i ∈ s.pow.intents, i.own = true ∨ i.gdn ≠ h % 2 ^ 20) → Leads (exec (.pintArrive ⟨p, w, pk⟩) s) fun t =>
        MemSame s t ∧ t.thr = s.thr ∧ t.fab = { s.fab with udp := s.fab.udp ++ [(s.memberAddr (h % 2 ^ 20), s.pkg.pintport, [])] } ∧
        (s.pow.gid = 0 ∨ leNat ((pk.data.drop 22).take 2) ≠ s.pow.gid → t.pow = s.pow) ∧
        (s.pow.gid ≠ 0 → leNat ((pk.data.drop 22).take 2) = s.pow.gid → ∃ i, t.pow = { s.pow with intents := s.pow.intents ++ [i] } ∧
          i.n = leNat ((pk.data.drop 8).take 8) ∧ i.rate = leNat ((pk.data.drop 16).take 2) ∧ i.own = false)) ∧
    (∀ p pk (n : Nat), ForUs s p pk → s.noService = false → pk.kind = 2 → (srcOf s pk).next = some n →
      n < pk.seq → pk.seq < n + 256 → pk.seq < 2 ^ 16 → (∀ r ∈ (srcOf s pk).resp, r.seq ≠ pk.seq) →
      (∀ b ∈ (srcOf s pk).buf, b.seq ≠ pk.seq) → Leads (exec (.fabricRequestArrive ⟨p, pk⟩) s) fun t =>
        MemSame s t ∧ t.fab.sent = s.fab.sent ++ [ackOf p pk] ∧ srcOf t pk = { srcOf s pk with buf := (srcOf s pk).buf ++ [pk] }) ∧
    (∀ p pk, ForUs s p pk → s.noService = true → pk.sgdn ≠ s.gdn → pk.kind = 2 → Leads (exec (.fabricRequestArrive ⟨p, pk⟩) s) fun t =>
      MemSame s t ∧ t.thr = s.thr ∧ Sent s t (ackOf p pk) (respTo s pk 9 6 0 [])) ∧
    (∀ p pk, p < 32 → (s.pt p).lst = 2 → pk.kind = 2 → pk.dgdn = s.gdn →
      128 ≤ (pk.sinc % 2 ^ 8 + 2 ^ 8 - Tbl.get 0 s.fab.inc (pk.sgdn % 2 ^ 10) % 2 ^ 8) % 2 ^ 8 →
      Leads (exec (.fabricRequestArrive ⟨p, pk⟩) s) fun t => MemSame s t ∧ t.thr = s.thr ∧ t.fab.sent = s.fab.sent ++ [ackOf p pk] ∧
        t.fab.cust = s.fab.cust ∧ srcOf t pk = srcOf s pk) ∧
    (∀ p pk port, (s.pt p).lst = 2 → pk.kind = 2 → pk.dgdn ≠ s.gdn → pk.via = 0x3FF → podPort s.pkg.member (pk.dgdn % 2 ^ 10) = port →
      ((s.pt port).lst ∈ [2, 3] → Leads (exec (.fabricRequestArrive ⟨p, pk⟩) s) fun t => MemSame s t ∧ t.thr = s.thr ∧
        ∃ out, t.fab.cust = s.fab.cust ++ [{ pk := { pk with hop := (pk.hop + 1) % 8 }, port, tries := 0, at' := s.time, out }] ∧
          t.fab.sent = s.fab.sent ++ ackOf p pk :: (if out then [(port, { pk with hop := (pk.hop + 1) % 8 })] else []) ∧
          ((s.pt port).lst = 3 → out = false)) ∧
      ((s.pt port).lst ∉ [2, 3] → pk.sgdn ≠ s.gdn → pk.sinc % 2 ^ 8 = Tbl.get 0 s.fab.inc (pk.sgdn % 2 ^ 10) % 2 ^ 8 →
        Leads (exec (.fabricRequestArrive ⟨p, pk⟩) s) fun t => MemSame s t ∧ t.thr = s.thr ∧ Sent s t (ackOf p pk) (respTo s pk 9 2 0 []))) ∧
    (∀ p pk, p < 32 → (s.pt p).lst ≠ 2 → ∀ i ∈ [Instr.fabricRequestArrive ⟨p, pk⟩, .fabricResponseArrive ⟨p, pk⟩, .signalIncrementArrive ⟨p, pk⟩, .edgeqArrive ⟨p, pk⟩,
      .nakArrive ⟨p, pk⟩, .endToEndAck ⟨p, pk⟩, .custodyAck ⟨p, pk⟩], exec i s = .next s) ∧
    (∀ p pk, (s.pt p).lst = 2 →
      let mine (c : Cust) : Prop := c.port = p ∧ c.pk.tag = pk.tag ∧ c.pk.seq = pk.seq ∧ c.pk.sgdn = pk.sgdn ∧ c.pk.dgdn = pk.dgdn
      ((∀ c ∈ s.fab.cust, c.port = p → c.out = true) → Leads (exec (.custodyAck ⟨p, pk⟩) s) fun t => MemSame s t ∧ t.thr = s.thr ∧
        t.fab.sent = s.fab.sent ∧ ∀ c, c ∈ t.fab.cust ↔ c ∈ s.fab.cust ∧ ¬mine c) ∧
      (∀ c d, s.fab.cust = [c, d] → mine c → ¬mine d → d.port = p → d.out = false → Leads (exec (.custodyAck ⟨p, pk⟩) s) fun t =>
        MemSame s t ∧ t.fab.cust = [{ d with out := true, at' := s.time }] ∧ t.fab.sent = s.fab.sent ++ [(p, d.pk)])) ∧
    (∀ tag c, s.fab.cust = [c] → c.pk.tag = tag →
      (s.time < c.at' + s.pkg.ctmo * 1000 ∨ (c.out = false ∧ (s.pt c.port).lst = 2) → exec (.custodyTimeout tag) s = .next s) ∧
      (c.at' + s.pkg.ctmo * 1000 ≤ s.time → (s.pt c.port).lst = 2 → c.out = true → c.tries = 0 → Leads (exec (.custodyTimeout tag) s) fun t =>
        t.fab.cust = [{ c with tries := 1, at' := s.time }] ∧ t.fab.sent = s.fab.sent ++ [(c.port, c.pk)] ∧ MemSame s t ∧ t.thr = s.thr) ∧
      (c.at' + s.pkg.ctmo * 1000 ≤ s.time → (s.pt c.port).lst ≠ 2 ∨ (c.out = true ∧ c.tries ≠ 0) → c.pk.kind = 2 → c.pk.sgdn = s.gdn →
        Leads (exec (.custodyTimeout tag) s) fun t => t.fab.cust = [] ∧ MemSame s t ∧ t.thr = s.thr ∧
          t.agenda = s.agenda ++ [.event (.nakArrive ⟨33, respTo s c.pk 9 2 0 []⟩)])) ∧
    ∀ ns, exec (.timeSync ns) s = .next { s with time := ns, pow := { s.pow with k := ns / 1000 } }

/-- A slot runs on queue pairs (R373, R375): it is loaded and not Faulted. -/
abbrev OnPair (s : State) (n rank k : Nat) (x : TSlot) : Prop :=
  s.sl n = x ∧ 2 ≤ x.st ∧ x.st ≠ 7 ∧ rank < x.size ∧ Tbl.get 0 x.rcv rank = k

/-- A frame that MACsec lets pass and that is no longer than a frame may be (R368). -/
abbrev Passes (w : Wire) : Prop := w.auth = true ∧ w.len ≤ 9216

/-- A slot that is armed by a record (R374). -/
def armedBy (s : State) (x : TSlot) (payload edge : Nat) : TSlot :=
  { x with st := 3, g := .ofNat 64 payload :: List.replicate 15 0, pc := 0, edge := edge % 2 ^ 48, armer := none, armedAt := s.fresh, wait := .none
           pend := none, recs := x.recs - x.scount }

/-- What a walk knows of an edge id (R401): 0 and its record, or 1 when no record is held, from this device's cache or from the answer to an EDGEQ; another
code when the EDGEQ failed; none when it has not been answered. -/
def knows (s : State) (cid e : Nat) : Option (Nat × Edge) :=
  if e / 2 ^ 28 = s.gdn then some (if (Tbl.get {} s.edges e).kind = 0 then (1, {}) else (0, Tbl.get {} s.edges e))
  else ((s.cx cid).answers.find? fun a => a.1 == e).map (·.2)

/-- The time of a predecessor, which a walk knows; that of one without a record, or of another pod, is the start (R401). -/
def predAt (s : State) (cid start e pt : Nat) : Prop :=
  if e % 2 ^ 26 = 0 ∨ e / 2 ^ 38 ≠ s.pkg.pod then pt = start
  else ∃ c r, knows s cid e = some (c, r) ∧ pt = if c = 0 then r.time else start

/-- The walk of a closed step (R401), from an edge id, `n` entries written: its entries, and its `END`. -/
inductive Walk (s : State) (cid start : Nat) : Nat → Nat → List (List Nat) → Nat → Prop
  | limit (e : Nat) : Walk s cid start 4096 e [] 2
  | root (n e : Nat) : n < 4096 → e % 2 ^ 26 = 0 → Walk s cid start n e [] 1
  | pod (n e : Nat) : n < 4096 → e % 2 ^ 26 ≠ 0 → e / 2 ^ 38 ≠ s.pkg.pod → Walk s cid start n e [] 5
  | lost (n e c : Nat) (r : Edge) : n < 4096 → e % 2 ^ 26 ≠ 0 → e / 2 ^ 38 = s.pkg.pod → knows s cid e = some (c, r) → c ≠ 0 →
      Walk s cid start n e [] (if c = 1 then 3 else 4)
  | passed (n e : Nat) (r : Edge) : n < 4096 → e % 2 ^ 26 ≠ 0 → e / 2 ^ 38 = s.pkg.pod → knows s cid e = some (0, r) → r.time < start →
      Walk s cid start n e [] 0
  | entry (n e : Nat) (r : Edge) (pt : Nat) (es : List (List Nat)) (fin : Nat) : n < 4096 → e % 2 ^ 26 ≠ 0 → e / 2 ^ 38 = s.pkg.pod →
      knows s cid e = some (0, r) → start ≤ r.time → predAt s cid start r.pred pt → Walk s cid start (n + 1) r.pred es fin →
      Walk s cid start n e ([4 * 2 ^ 56 + r.kind * 2 ^ 52 + e % 2 ^ 48, r.time % 2 ^ 40 * 2 ^ 24 + r.prod % 2 ^ 24, r.obj % 2 ^ 56,
        min (r.time - max start pt) (2 ^ 32 - 1) * 2 ^ 32 + n % 2 ^ 12] :: es) fin

/-- The trace buffer of a context takes `n` units (R265, R394, R395): tracing is on, no record has been dropped and no time record is due, the units fit
the ring of 2^sz units from `twr` on, and their words stand in Pinned pages, at locations apart from each other and from `TWR`. -/
structure TraceRoom (s : State) (cid n sz twr : Nat) (loc : Nat → Nat) (idx : Nat) : Prop where
  on : (s.cx cid).tracebase ≠ 0 ∧ ∃ w, s.hwRd cid ((s.cx cid).tracebase + 8) 8 = (some w, s) ∧ w.testBit 0 = true ∧ w / 2 ^ 32 % 2 ^ 5 = sz ∧
    7 ≤ sz ∧ sz ≤ 26
  dropped : (s.cx cid).drops = 0 ∧ (s.cx cid).traceRec = true ∧ (s.cx cid).lastTime / 2 ^ 32 = s.time / 2 ^ 32
  room : ∃ trd, trd < 2 ^ 32 ∧ twr < 2 ^ 32 ∧ s.hwRd cid (s.cx cid).tracebase 8 = (some (twr * 2 ^ 32 + trd), s) ∧
    (twr + 2 ^ 32 - trd) % 2 ^ 32 + n ≤ 2 ^ sz
  pinned : (∃ b h, s.heldOf (s.cx cid).asid (s.cx cid).tracebase = some (b, h) ∧ h.st = 2) ∧ ∀ i, i < n →
    ∃ b h, s.heldOf (s.cx cid).asid ((s.cx cid).tracebase + 64 + 32 * ((twr + i) % 2 ^ sz)) = some (b, h) ∧ h.st = 2
  reached : ∀ k, k < 4 * n → s.hwLoc cid (((s.cx cid).tracebase + 64 + 32 * ((twr + k / 4) % 2 ^ sz) + 8 * (k % 4)) % 2 ^ 56) true = (some (loc k), s) ∧
    s.hwWaits cid (((s.cx cid).tracebase + 64 + 32 * ((twr + k / 4) % 2 ^ sz) + 8 * (k % 4)) % 2 ^ 56) = none ∧ s.inHst (loc k) 8 = false
  index : s.hwLoc cid (((s.cx cid).tracebase + 4) % 2 ^ 56) true = (some idx, s) ∧ s.hwWaits cid (((s.cx cid).tracebase + 4) % 2 ^ 56) = none ∧
    s.inHst idx 4 = false
  apart : (∀ j k, j < 4 * n → k < 4 * n → j ≠ k → loc j + 8 ≤ loc k ∨ loc k + 8 ≤ loc j) ∧
    ∀ k, k < 4 * n → loc k + 8 ≤ idx ∨ idx + 4 ≤ loc k
  clean : s.tags = []

/-- A walk has ended, and its report stands in the trace buffer: the header and the entries, terminal first (R401). -/
structure Reported (s t : State) (cid : Nat) (c : Ctx) (units : List (List Nat)) (twr : Nat) (loc : Nat → Nat) (idx : Nat) : Prop where
  written : ∀ k, k < 4 * units.length → Holds t (loc k) (natLe 8 ((units.getD (k / 4) []).getD (k % 4) 0))
  index : t.rd idx 4 = (twr + units.length) % 2 ^ 32
  context : t.cx cid = { c with closed := c.closed.drop 1, answers := [], lastTime := s.time }
  threads : t.thr = s.thr
  rest : ∀ a, (∀ k, k < 4 * units.length → ¬(loc k ≤ a ∧ a < loc k + 8)) → ¬(idx ≤ a ∧ a < idx + 4) → t.byte a = s.byte a

/-- R369, R374, R376, R385 to R388, R400, R401: a free engine takes the slot armed earliest; a Waiting slot goes on when its signal has come and
adopts the edge; a run whose operations are acknowledged is Done, and a held arming is made; the watchdog faults a slot that waits too long; an
operation on a queue pair acts on the live frames and is answered, and an answer ends its own; a step mark closes a step, and its walk, which asks
other devices for what it does not know, writes its report of header and entries. (The numbering of queue-pair operations is the model's: log 52;
how a walk goes on over its answers: log 44; the increments of `BAR`: log 46.) -/
def Obligations.ScheduleEvents : Prop :=
  ∀ (s : State) (n : Nat) (x : TSlot), s.sl n = x →
    (∀ eng, (∀ y ∈ s.slot, y.2.eng = eng → y.2.st ≠ 4 ∧ y.2.st ≠ 5) → (n, x) ∈ s.slot → x.eng = eng → x.st = 3 →
      (∀ y ∈ s.slot, y.2.eng = eng → y.2.st = 3 → y ≠ (n, x) → x.armedAt < y.2.armedAt) →
      Leads (exec (.scheduleStart eng) s) (SlotIs s · n { x with st := 4 })) ∧
    (∀ eng, (∃ y ∈ s.slot, y.2.eng = eng ∧ (y.2.st = 4 ∨ y.2.st = 5)) → exec (.scheduleStart eng) s = .next s) ∧
    (∀ g c, x.st = 5 → x.wait = .signal g c → c ≤ x.sig.getD g 0 → Leads (exec (.trussWake n) s) fun t =>
      (t.sl n).st = 4 ∧ (t.sl n).wait = .none ∧ (t.sl n).pc = x.pc + 1 ∧ (t.sl n).edge = nextEdge s (x.eng / 4) ∧ (t.sl n).g = x.g ∧
      (∀ k, (t.sl n).sig.getD k 0 = if k = g then x.sig.getD k 0 - c else x.sig.getD k 0) ∧ (∀ k, k ≠ n → t.sl k = s.sl k) ∧ t.thr = s.thr) ∧
    (∀ g c, x.st = 5 → x.wait = .signal g c → x.sig.getD g 0 < c → exec (.trussWake n) s = .next s) ∧
    (∀ r, x.st = 5 → x.wait = .bar r → x.size = 2 → r = 0 → x.sig.getD 15 0 % 8 ≠ 0 → Leads (exec (.trussWake n) s) fun t =>
      (t.sl n).st = 4 ∧ (t.sl n).wait = .none ∧ (t.sl n).pc = x.pc + 1 ∧ (t.sl n).barn = x.barn + 1 ∧
      (t.sl n).sig.getD 15 0 = x.sig.getD 15 0 - 1 ∧ t.thr = s.thr) ∧
    (∀ va, x.st = 5 → x.wait = .recv va → x.ops = [] → x.todo = [] → Leads (exec (.trussWake n) s) fun t =>
      (t.sl n).st = 4 ∧ (t.sl n).wait = .none ∧ (t.sl n).pc = x.pc + 1 ∧ t.thr = s.thr) ∧
    (x.st = 4 → x.wait = .fin none → x.ops = [] → x.todo = [] → x.armer = none →
      (x.pend = none → Leads (exec (.scheduleDone n) s) (SlotIs s · n { x with st := 6, runs := (x.runs + 1) % 2 ^ 64, wait := .none })) ∧
      (∀ payload edge, x.pend = some (payload, edge) → Leads (exec (.scheduleDone n) s) fun t =>
        t.sl n = armedBy s { x with runs := (x.runs + 1) % 2 ^ 64 } payload edge ∧ t.thr = s.thr)) ∧
    (∀ p, x.wait = .fin p → x.ops ≠ [] → exec (.scheduleDone n) s = .next s) ∧
    (x.st = 5 → s.pkg.twdog ≠ 0 → x.waitAt + s.pkg.twdog * 1000 < s.time →
      Leads (exec (.scheduleWatchdog n) s) fun t => FaultedBy t n 9 ∧ t.thr = s.thr) ∧
    (x.st ≠ 5 ∨ s.pkg.twdog = 0 ∨ s.time ≤ x.waitAt + s.pkg.twdog * 1000 → exec (.scheduleWatchdog n) s = .next s) ∧
    (∀ w rank k, Passes w → OnPair s n rank k x →
      (∀ va loc data, data ≠ [] → PieceAt s x 1 (va % 2 ^ 56) data.length loc false true true → Leads (exec (.roceReceive n rank ⟨w, .write va 1 data⟩) s) fun t =>
        Holds t loc data ∧ MemBut s t loc data.length ∧ t.fab.eth = s.fab.eth ++ [ethTo t n rank (.ack k)] ∧ Tbl.get 0 (t.sl n).rcv rank = k + 1) ∧
      (∀ va loc len, PieceAt s x 1 (va % 2 ^ 56) len loc true false true → Leads (exec (.roceReceive n rank ⟨w, .read va len⟩) s) fun t =>
        MemSame s t ∧ t.fab.eth = s.fab.eth ++ [ethTo t n rank (.resp k (s.bytes loc len))]) ∧
      (∀ g c e, g < 16 → (x.peer rank).2.1 ∈ x.comm.map (·.2.1) → Leads (exec (.roceReceive n rank ⟨w, .send g c e⟩) s) fun t =>
        MemSame s t ∧ t.fab.eth = s.fab.eth ++ [ethTo t n rank (.ack k)] ∧ (t.sl n).sig.getD g 0 = min (x.sig.getD g 0 + c) (2 ^ 32 - 1))) ∧
    (∀ w rank op, w.auth = false → Leads (exec (.roceReceive n rank ⟨w, op⟩) s) fun t => MemSame s t ∧ t.thr = s.thr ∧ t.slot = s.slot ∧ t.fab = s.fab) ∧
    (∀ w rank j, Passes w → Leads (exec (.roceReceive n rank ⟨w, .ack j⟩) s)
      (SlotIs s · n { x with ops := x.ops.filter fun o => !(o.eth && o.rank == rank && o.k == j) })) ∧
    (∀ w rank j c o, Passes w → x.ops = [o] → o.eth = true → o.rank = rank → o.k = j → Leads (exec (.roceReceive n rank ⟨w, .fail j c⟩) s) fun t =>
      FaultedBy t n 7 ∧ (t.sl n).nakc = c) ∧
    (∀ cid c v e l, s.cx cid = c →
      (c.step = none → Leads (exec (.stepMarkArrive cid v e l) s) (CtxIs s · cid { c with step := some v, stepAt := s.time })) ∧
      (∀ old, c.step = some old → v.toNat ≤ old.toNat → exec (.stepMarkArrive cid v e l) s = .next s) ∧
      (∀ old, c.step = some old → old.toNat < v.toNat → Leads (exec (.stepMarkArrive cid v e l) s) fun t =>
        t.cx cid = { c with step := some v, stepAt := s.time, closed := c.closed ++ [(old, c.stepAt, s.time, e % 2 ^ 48)] } ∧
        t.thr = s.thr ∧ t.agenda = s.agenda ++ [.event (.criticalPathWalk cid)])) ∧
    (∀ cid c step start close term rest, s.cx cid = c → c.closed = (step, start, close, term) :: rest → c.tracebase = 0 →
      (term % 2 ^ 26 = 0 ∨ term / 2 ^ 28 = s.gdn ∧ term / 2 ^ 38 = s.pkg.pod ∧ (Tbl.get {} s.edges term).kind = 0 →
        Leads (exec (.criticalPathWalk cid) s) fun t => t.cx cid = { c with closed := rest, answers := [] } ∧ MemSame s t ∧ t.thr = s.thr) ∧
      (term % 2 ^ 26 ≠ 0 → term / 2 ^ 28 ≠ s.gdn → term / 2 ^ 38 = s.pkg.pod → c.answers = [] → s.outTo (term / 2 ^ 28) < 256 →
        (∀ r ∈ s.fab.out, r.owner ≠ .walk cid) → Leads (exec (.criticalPathWalk cid) s) fun t =>
          t.cx cid = c ∧ MemSame s t ∧ ∃ r ∈ t.fab.out, r.owner = .walk cid ∧ r.pk.kind = 7 ∧ r.pk.dgdn = term / 2 ^ 28 ∧ r.pk.data = natLe 8 term)) ∧
    (∀ cid c step start close term rest es fin sz twr loc idx, s.cx cid = c → c.closed = (step, start, close, term) :: rest →
      Walk s cid start 0 term es fin → TraceRoom s cid (1 + es.length) sz twr loc idx → Leads (exec (.criticalPathWalk cid) s) fun t =>
        Reported s t cid c ([3 * 2 ^ 56 + fin * 2 ^ 52 + es.length * 2 ^ 32, step.toNat, start, close] :: es) twr loc idx)

/-! ### The machine as a whole -/

/-- R19, R21, R23, R65, R224, R245, R253, R255, R330, R333, R339, R341, R355, R365, R370, R376, R397, R411, R413, R417: reset leaves the registers
that these rules name at the reset values that they give, no context, queue, translation, lock or schedule, nothing outstanding, and memory in its
canonical form. (A value of reset that the spec does not give is the model's, log 5, and is in no clause here; the canonical form of memory is the
model's too: log 1.) -/
def Obligations.ResetState : Prop :=
  let s := State.reset
  Memory.wf s.mem = true ∧ s.poison = [] ∧ s.held = [] ∧ s.tlb = [] ∧ s.locks = [] ∧ s.pkts = [] ∧ s.fab.out = [] ∧ s.fab.cust = [] ∧
  s.pkg.pmode = 4 ∧ s.pkg.ingport = 18601 ∧ s.pkg.pintport = 18602 ∧ s.pkg.twdog = 0 ∧ s.pkg.qdbase = 0 ∧ s.pkg.hstbase = 0 ∧
  (s.pkg.cred, s.pkg.ctmo, s.pkg.dline, s.pkg.rsnd) = (32, 10, 100, 3) ∧ s.pkg.rstat = 0 ∧ (∀ k, Tbl.get 15 s.pkg.homecfg k = 15) ∧
  (s.pow.pmax, s.pow.pmin, s.pow.slew, s.pow.sfree, s.pow.ilead, s.pow.scrubmax) = (3200, 400, 40, 10, 8, 300) ∧
  (s.pow.pset, s.pow.demand, s.pow.ball, s.pow.bshort, s.pow.tstep, s.pow.defer) = (400, 0, 0, 0, 0, 0) ∧
  (s.pow.gid, s.pow.gsize, s.pow.grank, s.pow.stag, s.pow.gbud) = (0, 1, 0, 4, 400) ∧ s.pow.bucket = 0 ∧ s.pow.intents = [] ∧
  (∀ d, (s.di d).lk = false ∧ (s.di d).lka = false ∧ (s.di d).brk = 0 ∧ (s.di d).fmhz = 1500 ∧ (s.di d).bucket = 0 ∧ (s.di d).edgeCtr = 1) ∧
  (∀ c, (s.cx c).state = 0 ∧ (s.cx c).fcause = 0 ∧ (s.cx c).cbusy = false ∧ (s.cx c).cstat = 0 ∧ (s.cx c).ptmo = 10 ∧ (s.cx c).v = false ∧
    (s.cx c).root = 0 ∧ (s.cx c).tvec = 0 ∧ (s.cx c).rrctl = List.replicate 8 0) ∧
  (∀ n, (s.sl n).st = 0 ∧ (s.sl n).runs = 0) ∧ (∀ p, (s.pt p).en = false ∧ (s.pt p).lst = 0) ∧ (∀ c, (s.co c).retired = false ∧ (s.co c).bucket = 0) ∧
  s.mg.m = List.replicate 8 0 ∧ s.mg.pkeySet = false ∧ s.mg.firstBind = false ∧ s.mg.ras = [] ∧ (∀ n, (s.mbx n).busy = false)

/-- Every step of a machine whose memory is in its canonical form gives a next state whose memory is too: no step stores a byte equal to what an
unlisted location reads as (the form, and that byte, are the model's: log 1). A step of the machine is the move that comes first in the agenda
(log 2). -/
def Obligations.MemoryStaysCanonical : Prop :=
  ∀ s, Memory.wf s.mem = true → Leads (step s) fun t => Memory.wf t.mem = true

/-- The tables of threads, page records, cores and contexts are in their canonical form, a line is locked once, a sector is marked once, and the members of a
group stand on distinct lanes (R103, R247, R255, R256). -/
structure Tidy (s : State) : Prop where
  threads : Tbl.wf {} s.thr = true
  records : Tbl.wf {} s.held = true
  cores : Tbl.wf {} s.core = true
  contexts : Tbl.wf {} s.ctx = true
  locks : s.locks.Nodup
  marks : s.poison.Nodup
  groups : ∀ c g, (s.co c).grp = some g → (g.members.map (· % 32)).Nodup
  replays : ∀ c, ∀ g ∈ (s.co c).replay, (g.members.map (· % 32)).Nodup
  stalls : ∀ f ∈ s.faults, (f.grp.members.map (· % 32)).Nodup
  parked : ∀ c, ∀ g ∈ (s.co c).parked, (g.members.map (· % 32)).Nodup
  waiting : ∀ c k ms, (s.co c).stall = some (k, ms) → (ms.map (· % 32)).Nodup

/-- R103, R247, R255, R256: every step keeps the tables of threads, page records, cores and contexts canonical, each line lock and each poison mark
unrepeated, and the members of every group on distinct lanes; and reset begins so. (The tables' canonical form is the model's, as memory's is: log
1.) -/
def Obligations.TablesStayTidy : Prop := Tidy State.reset ∧ ∀ s, Tidy s → Leads (step s) Tidy

/-- R80 to R92, R377: decoding the encoding of any well-formed core or Truss instruction gives it back. -/
def Obligations.DecodeEncode : Prop :=
  ∀ i : Instr, i.wf = true → (i.core.isSome = true → decodeWord (encode i) = .ok i) ∧ (i.truss.isSome = true → decodeTruss (encode i) = some i)

/-- R80, R89, R377: words written out from the spec's encoding tables decode to the instructions they stand for. -/
def Obligations.SampleWords : Prop :=
  -- IADD.s32 v1, v2, v3: OP 0x00, D 45:38, A 37:30, B 29:22, C vz 21:14, T 13:10 = 0
  decodeWord (.ofNat 64 (0x00 * 2 ^ 56 + 1 * 2 ^ 38 + 2 * 2 ^ 30 + 3 * 2 ^ 22)) =
    .ok (.iadd { g := .always, d := .reg 1, a := .reg 2, b := .reg 3, c := .reg 0, t := .s32, mod := 0, h := .none }) ∧
  -- NOP: OP 0xD0, format S, all fields 0
  decodeWord (.ofNat 64 (0xD0 * 2 ^ 56)) = .ok (.nop { g := .always, d := .reg 0, a := .reg 0, sel := 0 }) ∧
  -- BRA -1, guarded by NOT v5: OP 0xD1, GE 55, GN 54, GREG 53:46, OFF22 45:24
  decodeWord (.ofNat 64 (0xD1 * 2 ^ 56 + 2 ^ 55 + 2 ^ 54 + 5 * 2 ^ 46 + (2 ^ 22 - 1) * 2 ^ 24)) =
    .ok (.bra { g := .on true (.reg 5), off := -1, a := .reg 0, imm := 0 }) ∧
  -- TRAP 7: OP 0xD8, SEL16 15:0
  decodeWord (.ofNat 64 (0xD8 * 2 ^ 56 + 7)) = .ok (.trap { g := .always, d := .reg 0, a := .reg 0, sel := 7 }) ∧
  -- opcodes 0x2D and 0xFF are unassigned
  decodeWord (.ofNat 64 (0x2D * 2 ^ 56)) = .error .opcode ∧ decodeWord (.ofNat 64 (0xFF * 2 ^ 56)) = .error .opcode ∧
  -- NOP with SEL16 = 1
  decodeWord (.ofNat 64 (0xD0 * 2 ^ 56 + 1)) = .error .encoding ∧
  -- Truss ADDI g3, g4, -2: OP 63:58 = 2, D 57:54, A 53:50, IMM48 47:0
  decodeTruss (.ofNat 64 (2 * 2 ^ 58 + 3 * 2 ^ 54 + 4 * 2 ^ 50 + (2 ^ 48 - 2))) = some (.trussAddi { d := 3, a := 4, imm := -2 })

/-- What a core holds when it turns to a group's slot: the group in progress whose turn it still is, or, with none, the first of those that stall. -/
def Turns (s : State) (c : Nat) (g : Group) (parked : List Group) : Prop :=
  ((s.co c).grp = some g ∧ (s.co c).parked = parked ∧ ((s.co c).last ≠ some g ∨ s.awaitsPage c = true)) ∨
  ((s.co c).grp = none ∧ (s.co c).parked = g :: parked)

/-- R73, R78, R102, R106, R341, R375, R50: a step runs the instruction that stands where the agent whose move comes first stands: the word at the
slot of a core's group, read from its page's memory or the splice cache, or the issue of a clause; the word at an engine's PC; the packet that a CP
thread reads; or the event. Before a core's move the deferrals that are over end (R107); a core whose clock relocks does not move (R341); a group
whose slot stalls stands aside for an issue, and then its slot is tried again (R102, R280). (Whose move comes first is the model's agenda: log 2;
when deferrals end: log 95; that the word is read as memory stands at the move: log 9; how groups that stall stand aside: logs 106 and 110; that a
ballast source goes on: log 63.) -/
def Obligations.StepRuns : Prop :=
  ∀ s rest m t, s.agenda = m :: rest → s.mg.boot = .running → t = { s with agenda := rest } →
    (∀ c u, m = .core c → u = { t.undefer c with turn := c } →
      ((s.di (coreDie c)).relock = true → step s = .next u) ∧
      ((s.di (coreDie c)).relock = false →
        ((s.co c).grp = none → (s.co c).parked = [] → step s = exec (.clauseIssue c) (u.modCo c fun x => { x with last := none })) ∧
        (∀ g, (s.co c).grp = some g → (s.co c).last = some g → s.awaitsPage c = false →
          step s = exec (.clauseIssue c) (u.modCo c fun x => { x with grp := none, parked := x.parked ++ [g], last := none })) ∧
        (∀ g pk v, Turns s c g pk → v = u.modCo c (fun x => { x with grp := some g, last := some g, parked := pk }) →
          (∀ x s1 n i, pcAddr g.pc < spliceVa → State.reach v (g.members.headD 0) 1 true false (pcAddr g.pc) g.pc = (.ok x, s1) → pteX x.pte = true →
            (pteSo x.pte = true → (s.th (g.members.headD 0)).lvl ≠ .u) → x.held.st ≠ 6 → x.place s1 (pcAddr g.pc) = .loc n →
            decodeWord (.ofNat 64 (s1.rd n 8)) = .ok i → step s = exec i (s1.fill n)) ∧
          (∀ e i, spliceVa ≤ pcAddr g.pc → s.spliceAt (s.cidOf (g.members.headD 0)) (pcAddr g.pc) = some e →
            decodeWord (e.text.getD ((pcAddr g.pc - e.base) / 8) 0) = .ok i → step s = exec i v)))) ∧
    (∀ e n w i, m = .engine e → s.slotOn e = some n → (s.sl n).words[(s.sl n).pc]? = some w → decodeTruss w = some i →
      step s = exec i { t with eturn := e }) ∧
    (∀ q i, m = .cp q → (s.qv q).qst ≠ 3 → t.fetchPacket q = .ok i → step s = exec i t) ∧
    (∀ i, m = .event i → isEvent i = true → (∀ d, i ≠ .ballastHintFetch d ∧ i ≠ .ballastScrubLine d) → step s = exec i t) ∧
    (∀ d, m = .event (.ballastHintFetch d) → step s = exec (.ballastHintFetch d)
      (if (s.di d).hints = [] ∨ s.pow.offered < (s.hintPrice : Int) then t else s)) ∧
    (∀ d, m = .event (.ballastScrubLine d) → step s = exec (.ballastScrubLine d) (if s.scrubDue d = true ∧ 0 < s.scrubPrice then s else t))

/-- R90: a word with an unassigned opcode makes every member of its group take ILLEGAL_OPCODE at the slot, with the word as `TVAL`, whatever the
class of its clause, when the core turns to the group (how groups that stall stand aside: log 110). -/
def Obligations.UnassignedOpcodes : Prop :=
  ∀ s rest c g pk t w, s.agenda = .core c :: rest → s.mg.boot = .running → (s.di (coreDie c)).relock = false → Turns s c g pk →
    g.members.Nodup → (∀ m ∈ g.members, s.resident m = true ∧ (s.th m).inh = false) →
    State.fetchWord (State.modCo { State.undefer { s with agenda := rest } c with turn := c } c fun x =>
      { x with grp := some g, last := some g, parked := pk }) (g.members.headD 0) g.pc = (.word w, t) →
    (∀ op, op = w.toNat / 2 ^ 56 → (0x2D ≤ op ∧ op ≤ 0x3F) ∨ (0x5B ≤ op ∧ op ≤ 0x7F) ∨ (0x88 ≤ op ∧ op ≤ 0x8F) ∨ (0x9E ≤ op ∧ op ≤ 0xAF) ∨
      (0xBB ≤ op ∧ op ≤ 0xBF) ∨ (0xC4 ≤ op ∧ op ≤ 0xCF) ∨ (0xDC ≤ op ∧ op ≤ 0xDF) ∨ (0xEB ≤ op ∧ op ≤ 0xFF)) →
    Leads (step s) fun u => (u.co c).grp = none ∧ u.mem = s.mem ∧
      ∀ m ∈ g.members, Trapped (s.th m) (u.th m) (s.original m g.pc) 0x01 w g.pc
end

