-- ==== Sys2Proof/Laws/Table.lean ====
section
/-!
SUPPORT. Laws of sparse tables, filled lists and memory: what is read after a write, and the canonical form.
-/
namespace Sys2Proof.Machine

section Tables
variable {α : Type} (d : α)

@[simp] theorem Tbl.get_nil (n : Nat) : Tbl.get d [] n = d := rfl

/-- Reading after a key was taken out. -/
theorem Tbl.get_del (t : Tbl α) (n m : Nat) : Tbl.get d (Tbl.del t n) m = if m = n then d else Tbl.get d t m := by
  induction t with
  | nil => simp [Tbl.del, Tbl.get]
  | cons e t ih =>
    obtain ⟨k, v⟩ := e
    by_cases hk : k = n
    · subst hk
      simp only [Tbl.del, if_true, ih, Tbl.get]
      by_cases hm : m = k
      · simp [hm]
      · simp [hm, Ne.symm hm]
    · simp only [Tbl.del, if_neg hk, Tbl.get, ih]
      by_cases hm : m = n
      · subst hm; simp [hk]
      · simp [hm]

/-- Reading after a key was put in anew. -/
theorem Tbl.get_ins (t : Tbl α) (n m : Nat) (x : α) :
    Tbl.get d (Tbl.ins (Tbl.del t n) n x) m = if m = n then x else Tbl.get d t m := by
  induction t with
  | nil =>
    by_cases hm : m = n
    · simp [Tbl.del, Tbl.ins, Tbl.get, hm]
    · simp [Tbl.del, Tbl.ins, Tbl.get, hm, Ne.symm hm]
  | cons e t ih =>
    obtain ⟨k, v⟩ := e
    by_cases hk : k = n
    · subst hk
      simp only [Tbl.del, if_true, ih, Tbl.get]
      by_cases hm : m = k
      · simp [hm]
      · simp [hm, Ne.symm hm]
    · simp only [Tbl.del, if_neg hk, Tbl.ins]
      by_cases hl : n ≤ k
      · simp only [if_pos hl, Tbl.get, Tbl.get_del]
        by_cases hm : m = n
        · simp [hm]
        · simp [hm, Ne.symm hm]
      · simp only [if_neg hl, Tbl.get, ih]
        by_cases hm : m = n
        · subst hm; simp [hk]
        · simp [hm]

variable [DecidableEq α]

/-- Reading an entry after it was set. -/
@[simp] theorem Tbl.get_set_same (t : Tbl α) (n : Nat) (x : α) : Tbl.get d (Tbl.set d t n x) n = x := by
  unfold Tbl.set
  split
  · next h => rw [Tbl.get_del]; simp [h]
  · rw [Tbl.get_ins d t n n x]; simp

/-- Setting an entry leaves every other one. -/
theorem Tbl.get_set_ne (t : Tbl α) {n m : Nat} (x : α) (h : m ≠ n) : Tbl.get d (Tbl.set d t n x) m = Tbl.get d t m := by
  unfold Tbl.set
  split
  · rw [Tbl.get_del]; simp [h]
  · rw [Tbl.get_ins d t n m x]; simp [h]

/-- What is read after an entry was set. -/
theorem Tbl.get_set (t : Tbl α) (n m : Nat) (x : α) : Tbl.get d (Tbl.set d t n x) m = if m = n then x else Tbl.get d t m := by
  split
  · next h => rw [h, Tbl.get_set_same]
  · next h => rw [Tbl.get_set_ne d t x h]

theorem Tbl.wfFrom_mono {t : Tbl α} {a b : Nat} (h : Tbl.wfFrom d b t = true) (hab : a ≤ b) : Tbl.wfFrom d a t = true := by
  cases t with
  | nil => rfl
  | cons e t =>
    obtain ⟨k, v⟩ := e
    simp only [Tbl.wfFrom, Bool.and_eq_true, decide_eq_true_eq] at h ⊢
    exact ⟨⟨by omega, h.1.2⟩, h.2⟩

theorem Tbl.wfFrom_del {t : Tbl α} {a n : Nat} (h : Tbl.wfFrom d a t = true) : Tbl.wfFrom d a (Tbl.del t n) = true := by
  induction t generalizing a with
  | nil => rfl
  | cons e t ih =>
    obtain ⟨k, v⟩ := e
    simp only [Tbl.wfFrom, Bool.and_eq_true, decide_eq_true_eq] at h
    unfold Tbl.del
    split
    · exact ih (Tbl.wfFrom_mono d h.2 (by omega))
    · simp only [Tbl.wfFrom, Bool.and_eq_true, decide_eq_true_eq]
      exact ⟨h.1, ih h.2⟩

theorem Tbl.wfFrom_ins {t : Tbl α} {a n : Nat} {x : α} (h : Tbl.wfFrom d a t = true) (hx : x ≠ d) (ha : a ≤ n) :
    Tbl.wfFrom d a (Tbl.ins (Tbl.del t n) n x) = true := by
  induction t generalizing a with
  | nil => simp [Tbl.del, Tbl.ins, Tbl.wfFrom, hx, ha]
  | cons e t ih =>
    obtain ⟨k, v⟩ := e
    simp only [Tbl.wfFrom, Bool.and_eq_true, decide_eq_true_eq] at h
    by_cases hk : k = n
    · simp only [Tbl.del, if_pos hk]
      exact ih (Tbl.wfFrom_mono d h.2 (by omega)) ha
    · simp only [Tbl.del, if_neg hk, Tbl.ins]
      split
      · simp only [Tbl.wfFrom, Bool.and_eq_true, decide_eq_true_eq]
        exact ⟨⟨ha, hx⟩, ⟨by omega, h.1.2⟩, Tbl.wfFrom_del d h.2⟩
      · simp only [Tbl.wfFrom, Bool.and_eq_true, decide_eq_true_eq]
        exact ⟨h.1, ih h.2 (by omega)⟩

/-- Setting an entry keeps the canonical form. -/
theorem Tbl.set_wf {t : Tbl α} (n : Nat) (x : α) (h : Tbl.wf d t = true) : Tbl.wf d (Tbl.set d t n x) = true := by
  unfold Tbl.wf Tbl.set at *
  split
  · exact Tbl.wfFrom_del d h
  · next hx => exact Tbl.wfFrom_ins d h hx (Nat.zero_le n)

theorem Tbl.wfFrom_filter {t : Tbl α} {a : Nat} (p : Nat × α → Bool) (h : Tbl.wfFrom d a t = true) :
    Tbl.wfFrom d a (t.filter p) = true := by
  induction t generalizing a with
  | nil => rfl
  | cons e t ih =>
    obtain ⟨k, v⟩ := e
    simp only [Tbl.wfFrom, Bool.and_eq_true, decide_eq_true_eq] at h
    simp only [List.filter_cons]
    split
    · simp only [Tbl.wfFrom, Bool.and_eq_true, decide_eq_true_eq]
      exact ⟨h.1, ih h.2⟩
    · exact ih (Tbl.wfFrom_mono d h.2 (by omega))

/-- Dropping entries keeps the canonical form. -/
theorem Tbl.filter_wf {t : Tbl α} (p : Nat × α → Bool) (h : Tbl.wf d t = true) : Tbl.wf d (t.filter p) = true :=
  Tbl.wfFrom_filter d p h

end Tables

/-! ### Filled lists -/

section Lists
variable {α : Type} (d : α)

/-- Reading an element after it was replaced. -/
@[simp] theorem getD_setAt_same (l : List α) (i : Nat) (x : α) : (setAt d l i x).getD i d = x := by
  induction i generalizing l with
  | zero => cases l <;> rfl
  | succ i ih => cases l <;> simpa [setAt] using ih _

/-- Replacing an element leaves every other one. -/
theorem getD_setAt_ne (l : List α) {i j : Nat} (x : α) (h : j ≠ i) : (setAt d l i x).getD j d = l.getD j d := by
  induction i generalizing l j with
  | zero =>
    cases j with
    | zero => exact absurd rfl h
    | succ j => cases l <;> simp [setAt]
  | succ i ih =>
    cases j with
    | zero => cases l <;> simp [setAt]
    | succ j =>
      cases l with
      | nil => simpa [setAt] using ih [] (j := j) (by omega)
      | cons a l => simpa [setAt] using ih l (j := j) (by omega)

end Lists

/-! ### Memory -/

/-- The byte that memory holds after a write of bytes. -/
theorem Memory.get_put (m : Memory) (loc : Nat) (bs : List Byte) (a : Nat) :
    Tbl.get Memory.blank (Memory.put m loc bs) a =
      if loc ≤ a ∧ a < loc + bs.length then bs.getD (a - loc) Memory.blank else Tbl.get Memory.blank m a := by
  induction bs generalizing m loc with
  | nil =>
    have h : ¬ (loc ≤ a ∧ a < loc + ([] : List Byte).length) := by simp
    rw [if_neg h]; rfl
  | cons b bs ih =>
    simp only [Memory.put, ih, List.length_cons]
    by_cases h : loc + 1 ≤ a ∧ a < loc + 1 + bs.length
    · rw [if_pos h, if_pos ⟨by omega, by omega⟩]
      obtain ⟨k, hk⟩ : ∃ k, a - loc = k + 1 := ⟨a - loc - 1, by omega⟩
      rw [hk, show a - (loc + 1) = k from by omega]; rfl
    · rw [if_neg h, Tbl.get_set]
      by_cases ha : a = loc
      · subst ha; rw [if_pos rfl, if_pos ⟨by omega, by omega⟩]; simp
      · rw [if_neg ha, if_neg]; omega

/-- A write of bytes keeps the canonical form. -/
theorem Memory.put_wf (m : Memory) (loc : Nat) (bs : List Byte) (h : Memory.wf m = true) : Memory.wf (Memory.put m loc bs) = true := by
  induction bs generalizing m loc with
  | nil => exact h
  | cons b bs ih => exact ih _ _ (Tbl.set_wf Memory.blank loc b h)

/-- The bytes of a number read back. -/
theorem leNat_natLe (n x : Nat) : leNat (natLe n x) = x % 256 ^ n := by
  induction n generalizing x with
  | zero => simp [natLe, leNat, Nat.mod_one]
  | succ n ih =>
    simp only [natLe, leNat, ih, BitVec.toNat_ofNat]
    rw [show (256 : Nat) ^ (n + 1) = 256 * 256 ^ n from by ring, Nat.mod_mul]

@[simp] theorem natLe_length (n x : Nat) : (natLe n x).length = n := by
  induction n generalizing x with
  | zero => rfl
  | succ n ih => simp [natLe, ih]

end Sys2Proof.Machine
end

