-- ==== Sys2Proof/Laws/State.lean ====
section
/-!
SUPPORT. Laws of the state's own updates: each changes one part, reads back what was written, and leaves every other part.
-/
namespace Sys2Proof.Machine

/-- `setTh` leaves every part but `thr`. -/
@[simp] theorem State.setTh_same (s : State) (tid : Nat) (t : Thr) :
    (s.setTh tid t).mem = s.mem ∧ (s.setTh tid t).poison = s.poison ∧ (s.setTh tid t).soft = s.soft ∧ (s.setTh tid t).tags = s.tags ∧
    (s.setTh tid t).gang = s.gang ∧ (s.setTh tid t).blk = s.blk ∧ (s.setTh tid t).grid = s.grid ∧ (s.setTh tid t).core = s.core ∧
    (s.setTh tid t).ccl = s.ccl ∧ (s.setTh tid t).ctx = s.ctx ∧ (s.setTh tid t).held = s.held ∧ (s.setTh tid t).faults = s.faults ∧
    (s.setTh tid t).token = s.token ∧ (s.setTh tid t).tlb = s.tlb ∧ (s.setTh tid t).locks = s.locks ∧ (s.setTh tid t).q = s.q ∧
    (s.setTh tid t).cursor = s.cursor ∧ (s.setTh tid t).watch = s.watch ∧ (s.setTh tid t).pkts = s.pkts ∧
    (s.setTh tid t).handles = s.handles ∧ (s.setTh tid t).splices = s.splices ∧ (s.setTh tid t).node = s.node ∧
    (s.setTh tid t).recs = s.recs ∧ (s.setTh tid t).slot = s.slot ∧ (s.setTh tid t).die = s.die ∧ (s.setTh tid t).edges = s.edges ∧
    (s.setTh tid t).edgeOrder = s.edgeOrder ∧ (s.setTh tid t).pkg = s.pkg ∧ (s.setTh tid t).pow = s.pow ∧ (s.setTh tid t).fab = s.fab ∧
    (s.setTh tid t).mg = s.mg ∧ (s.setTh tid t).hres = s.hres ∧ (s.setTh tid t).time = s.time ∧ (s.setTh tid t).gridCtr = s.gridCtr ∧
    (s.setTh tid t).blkCtr = s.blkCtr ∧ (s.setTh tid t).turn = s.turn ∧ (s.setTh tid t).eturn = s.eturn ∧ (s.setTh tid t).acc = s.acc ∧
    (s.setTh tid t).bus = s.bus ∧ (s.setTh tid t).fresh = s.fresh ∧ (s.setTh tid t).agenda = s.agenda :=
  ⟨rfl, rfl, rfl, rfl, rfl, rfl, rfl, rfl, rfl, rfl, rfl, rfl, rfl, rfl, rfl, rfl, rfl, rfl, rfl, rfl, rfl, rfl, rfl, rfl, rfl, rfl, rfl, rfl, rfl, rfl, rfl, rfl, rfl, rfl, rfl, rfl, rfl, rfl, rfl, rfl, rfl⟩

/-- `setGg` leaves every part but `gang`. -/
@[simp] theorem State.setGg_same (s : State) (k : Nat) (g : Gang) :
    (s.setGg k g).mem = s.mem ∧ (s.setGg k g).poison = s.poison ∧ (s.setGg k g).soft = s.soft ∧ (s.setGg k g).tags = s.tags ∧
    (s.setGg k g).thr = s.thr ∧ (s.setGg k g).blk = s.blk ∧ (s.setGg k g).grid = s.grid ∧ (s.setGg k g).core = s.core ∧
    (s.setGg k g).ccl = s.ccl ∧ (s.setGg k g).ctx = s.ctx ∧ (s.setGg k g).held = s.held ∧ (s.setGg k g).faults = s.faults ∧
    (s.setGg k g).token = s.token ∧ (s.setGg k g).tlb = s.tlb ∧ (s.setGg k g).locks = s.locks ∧ (s.setGg k g).q = s.q ∧
    (s.setGg k g).cursor = s.cursor ∧ (s.setGg k g).watch = s.watch ∧ (s.setGg k g).pkts = s.pkts ∧ (s.setGg k g).handles = s.handles ∧
    (s.setGg k g).splices = s.splices ∧ (s.setGg k g).node = s.node ∧ (s.setGg k g).recs = s.recs ∧ (s.setGg k g).slot = s.slot ∧
    (s.setGg k g).die = s.die ∧ (s.setGg k g).edges = s.edges ∧ (s.setGg k g).edgeOrder = s.edgeOrder ∧ (s.setGg k g).pkg = s.pkg ∧
    (s.setGg k g).pow = s.pow ∧ (s.setGg k g).fab = s.fab ∧ (s.setGg k g).mg = s.mg ∧ (s.setGg k g).hres = s.hres ∧
    (s.setGg k g).time = s.time ∧ (s.setGg k g).gridCtr = s.gridCtr ∧ (s.setGg k g).blkCtr = s.blkCtr ∧ (s.setGg k g).turn = s.turn ∧
    (s.setGg k g).eturn = s.eturn ∧ (s.setGg k g).acc = s.acc ∧ (s.setGg k g).bus = s.bus ∧ (s.setGg k g).fresh = s.fresh ∧
    (s.setGg k g).agenda = s.agenda :=
  ⟨rfl, rfl, rfl, rfl, rfl, rfl, rfl, rfl, rfl, rfl, rfl, rfl, rfl, rfl, rfl, rfl, rfl, rfl, rfl, rfl, rfl, rfl, rfl, rfl, rfl, rfl, rfl, rfl, rfl, rfl, rfl, rfl, rfl, rfl, rfl, rfl, rfl, rfl, rfl, rfl, rfl⟩

/-- `setBk` leaves every part but `blk`. -/
@[simp] theorem State.setBk_same (s : State) (b : Nat) (x : Blk) :
    (s.setBk b x).mem = s.mem ∧ (s.setBk b x).poison = s.poison ∧ (s.setBk b x).soft = s.soft ∧ (s.setBk b x).tags = s.tags ∧
    (s.setBk b x).thr = s.thr ∧ (s.setBk b x).gang = s.gang ∧ (s.setBk b x).grid = s.grid ∧ (s.setBk b x).core = s.core ∧
    (s.setBk b x).ccl = s.ccl ∧ (s.setBk b x).ctx = s.ctx ∧ (s.setBk b x).held = s.held ∧ (s.setBk b x).faults = s.faults ∧
    (s.setBk b x).token = s.token ∧ (s.setBk b x).tlb = s.tlb ∧ (s.setBk b x).locks = s.locks ∧ (s.setBk b x).q = s.q ∧
    (s.setBk b x).cursor = s.cursor ∧ (s.setBk b x).watch = s.watch ∧ (s.setBk b x).pkts = s.pkts ∧ (s.setBk b x).handles = s.handles ∧
    (s.setBk b x).splices = s.splices ∧ (s.setBk b x).node = s.node ∧ (s.setBk b x).recs = s.recs ∧ (s.setBk b x).slot = s.slot ∧
    (s.setBk b x).die = s.die ∧ (s.setBk b x).edges = s.edges ∧ (s.setBk b x).edgeOrder = s.edgeOrder ∧ (s.setBk b x).pkg = s.pkg ∧
    (s.setBk b x).pow = s.pow ∧ (s.setBk b x).fab = s.fab ∧ (s.setBk b x).mg = s.mg ∧ (s.setBk b x).hres = s.hres ∧
    (s.setBk b x).time = s.time ∧ (s.setBk b x).gridCtr = s.gridCtr ∧ (s.setBk b x).blkCtr = s.blkCtr ∧ (s.setBk b x).turn = s.turn ∧
    (s.setBk b x).eturn = s.eturn ∧ (s.setBk b x).acc = s.acc ∧ (s.setBk b x).bus = s.bus ∧ (s.setBk b x).fresh = s.fresh ∧
    (s.setBk b x).agenda = s.agenda :=
  ⟨rfl, rfl, rfl, rfl, rfl, rfl, rfl, rfl, rfl, rfl, rfl, rfl, rfl, rfl, rfl, rfl, rfl, rfl, rfl, rfl, rfl, rfl, rfl, rfl, rfl, rfl, rfl, rfl, rfl, rfl, rfl, rfl, rfl, rfl, rfl, rfl, rfl, rfl, rfl, rfl, rfl⟩

/-- `setGr` leaves every part but `grid`. -/
@[simp] theorem State.setGr_same (s : State) (g : Nat) (x : Grid) :
    (s.setGr g x).mem = s.mem ∧ (s.setGr g x).poison = s.poison ∧ (s.setGr g x).soft = s.soft ∧ (s.setGr g x).tags = s.tags ∧
    (s.setGr g x).thr = s.thr ∧ (s.setGr g x).gang = s.gang ∧ (s.setGr g x).blk = s.blk ∧ (s.setGr g x).core = s.core ∧
    (s.setGr g x).ccl = s.ccl ∧ (s.setGr g x).ctx = s.ctx ∧ (s.setGr g x).held = s.held ∧ (s.setGr g x).faults = s.faults ∧
    (s.setGr g x).token = s.token ∧ (s.setGr g x).tlb = s.tlb ∧ (s.setGr g x).locks = s.locks ∧ (s.setGr g x).q = s.q ∧
    (s.setGr g x).cursor = s.cursor ∧ (s.setGr g x).watch = s.watch ∧ (s.setGr g x).pkts = s.pkts ∧ (s.setGr g x).handles = s.handles ∧
    (s.setGr g x).splices = s.splices ∧ (s.setGr g x).node = s.node ∧ (s.setGr g x).recs = s.recs ∧ (s.setGr g x).slot = s.slot ∧
    (s.setGr g x).die = s.die ∧ (s.setGr g x).edges = s.edges ∧ (s.setGr g x).edgeOrder = s.edgeOrder ∧ (s.setGr g x).pkg = s.pkg ∧
    (s.setGr g x).pow = s.pow ∧ (s.setGr g x).fab = s.fab ∧ (s.setGr g x).mg = s.mg ∧ (s.setGr g x).hres = s.hres ∧
    (s.setGr g x).time = s.time ∧ (s.setGr g x).gridCtr = s.gridCtr ∧ (s.setGr g x).blkCtr = s.blkCtr ∧ (s.setGr g x).turn = s.turn ∧
    (s.setGr g x).eturn = s.eturn ∧ (s.setGr g x).acc = s.acc ∧ (s.setGr g x).bus = s.bus ∧ (s.setGr g x).fresh = s.fresh ∧
    (s.setGr g x).agenda = s.agenda :=
  ⟨rfl, rfl, rfl, rfl, rfl, rfl, rfl, rfl, rfl, rfl, rfl, rfl, rfl, rfl, rfl, rfl, rfl, rfl, rfl, rfl, rfl, rfl, rfl, rfl, rfl, rfl, rfl, rfl, rfl, rfl, rfl, rfl, rfl, rfl, rfl, rfl, rfl, rfl, rfl, rfl, rfl⟩

/-- `setCo` leaves every part but `core`. -/
@[simp] theorem State.setCo_same (s : State) (c : Nat) (x : Core) :
    (s.setCo c x).mem = s.mem ∧ (s.setCo c x).poison = s.poison ∧ (s.setCo c x).soft = s.soft ∧ (s.setCo c x).tags = s.tags ∧
    (s.setCo c x).thr = s.thr ∧ (s.setCo c x).gang = s.gang ∧ (s.setCo c x).blk = s.blk ∧ (s.setCo c x).grid = s.grid ∧
    (s.setCo c x).ccl = s.ccl ∧ (s.setCo c x).ctx = s.ctx ∧ (s.setCo c x).held = s.held ∧ (s.setCo c x).faults = s.faults ∧
    (s.setCo c x).token = s.token ∧ (s.setCo c x).tlb = s.tlb ∧ (s.setCo c x).locks = s.locks ∧ (s.setCo c x).q = s.q ∧
    (s.setCo c x).cursor = s.cursor ∧ (s.setCo c x).watch = s.watch ∧ (s.setCo c x).pkts = s.pkts ∧ (s.setCo c x).handles = s.handles ∧
    (s.setCo c x).splices = s.splices ∧ (s.setCo c x).node = s.node ∧ (s.setCo c x).recs = s.recs ∧ (s.setCo c x).slot = s.slot ∧
    (s.setCo c x).die = s.die ∧ (s.setCo c x).edges = s.edges ∧ (s.setCo c x).edgeOrder = s.edgeOrder ∧ (s.setCo c x).pkg = s.pkg ∧
    (s.setCo c x).pow = s.pow ∧ (s.setCo c x).fab = s.fab ∧ (s.setCo c x).mg = s.mg ∧ (s.setCo c x).hres = s.hres ∧
    (s.setCo c x).time = s.time ∧ (s.setCo c x).gridCtr = s.gridCtr ∧ (s.setCo c x).blkCtr = s.blkCtr ∧ (s.setCo c x).turn = s.turn ∧
    (s.setCo c x).eturn = s.eturn ∧ (s.setCo c x).acc = s.acc ∧ (s.setCo c x).bus = s.bus ∧ (s.setCo c x).fresh = s.fresh ∧
    (s.setCo c x).agenda = s.agenda :=
  ⟨rfl, rfl, rfl, rfl, rfl, rfl, rfl, rfl, rfl, rfl, rfl, rfl, rfl, rfl, rfl, rfl, rfl, rfl, rfl, rfl, rfl, rfl, rfl, rfl, rfl, rfl, rfl, rfl, rfl, rfl, rfl, rfl, rfl, rfl, rfl, rfl, rfl, rfl, rfl, rfl, rfl⟩

/-- `setCc` leaves every part but `ccl`. -/
@[simp] theorem State.setCc_same (s : State) (c : Nat) (x : Ccl) :
    (s.setCc c x).mem = s.mem ∧ (s.setCc c x).poison = s.poison ∧ (s.setCc c x).soft = s.soft ∧ (s.setCc c x).tags = s.tags ∧
    (s.setCc c x).thr = s.thr ∧ (s.setCc c x).gang = s.gang ∧ (s.setCc c x).blk = s.blk ∧ (s.setCc c x).grid = s.grid ∧
    (s.setCc c x).core = s.core ∧ (s.setCc c x).ctx = s.ctx ∧ (s.setCc c x).held = s.held ∧ (s.setCc c x).faults = s.faults ∧
    (s.setCc c x).token = s.token ∧ (s.setCc c x).tlb = s.tlb ∧ (s.setCc c x).locks = s.locks ∧ (s.setCc c x).q = s.q ∧
    (s.setCc c x).cursor = s.cursor ∧ (s.setCc c x).watch = s.watch ∧ (s.setCc c x).pkts = s.pkts ∧ (s.setCc c x).handles = s.handles ∧
    (s.setCc c x).splices = s.splices ∧ (s.setCc c x).node = s.node ∧ (s.setCc c x).recs = s.recs ∧ (s.setCc c x).slot = s.slot ∧
    (s.setCc c x).die = s.die ∧ (s.setCc c x).edges = s.edges ∧ (s.setCc c x).edgeOrder = s.edgeOrder ∧ (s.setCc c x).pkg = s.pkg ∧
    (s.setCc c x).pow = s.pow ∧ (s.setCc c x).fab = s.fab ∧ (s.setCc c x).mg = s.mg ∧ (s.setCc c x).hres = s.hres ∧
    (s.setCc c x).time = s.time ∧ (s.setCc c x).gridCtr = s.gridCtr ∧ (s.setCc c x).blkCtr = s.blkCtr ∧ (s.setCc c x).turn = s.turn ∧
    (s.setCc c x).eturn = s.eturn ∧ (s.setCc c x).acc = s.acc ∧ (s.setCc c x).bus = s.bus ∧ (s.setCc c x).fresh = s.fresh ∧
    (s.setCc c x).agenda = s.agenda :=
  ⟨rfl, rfl, rfl, rfl, rfl, rfl, rfl, rfl, rfl, rfl, rfl, rfl, rfl, rfl, rfl, rfl, rfl, rfl, rfl, rfl, rfl, rfl, rfl, rfl, rfl, rfl, rfl, rfl, rfl, rfl, rfl, rfl, rfl, rfl, rfl, rfl, rfl, rfl, rfl, rfl, rfl⟩

/-- `setCx` leaves every part but `ctx`. -/
@[simp] theorem State.setCx_same (s : State) (c : Nat) (x : Ctx) :
    (s.setCx c x).mem = s.mem ∧ (s.setCx c x).poison = s.poison ∧ (s.setCx c x).soft = s.soft ∧ (s.setCx c x).tags = s.tags ∧
    (s.setCx c x).thr = s.thr ∧ (s.setCx c x).gang = s.gang ∧ (s.setCx c x).blk = s.blk ∧ (s.setCx c x).grid = s.grid ∧
    (s.setCx c x).core = s.core ∧ (s.setCx c x).ccl = s.ccl ∧ (s.setCx c x).held = s.held ∧ (s.setCx c x).faults = s.faults ∧
    (s.setCx c x).token = s.token ∧ (s.setCx c x).tlb = s.tlb ∧ (s.setCx c x).locks = s.locks ∧ (s.setCx c x).q = s.q ∧
    (s.setCx c x).cursor = s.cursor ∧ (s.setCx c x).watch = s.watch ∧ (s.setCx c x).pkts = s.pkts ∧ (s.setCx c x).handles = s.handles ∧
    (s.setCx c x).splices = s.splices ∧ (s.setCx c x).node = s.node ∧ (s.setCx c x).recs = s.recs ∧ (s.setCx c x).slot = s.slot ∧
    (s.setCx c x).die = s.die ∧ (s.setCx c x).edges = s.edges ∧ (s.setCx c x).edgeOrder = s.edgeOrder ∧ (s.setCx c x).pkg = s.pkg ∧
    (s.setCx c x).pow = s.pow ∧ (s.setCx c x).fab = s.fab ∧ (s.setCx c x).mg = s.mg ∧ (s.setCx c x).hres = s.hres ∧
    (s.setCx c x).time = s.time ∧ (s.setCx c x).gridCtr = s.gridCtr ∧ (s.setCx c x).blkCtr = s.blkCtr ∧ (s.setCx c x).turn = s.turn ∧
    (s.setCx c x).eturn = s.eturn ∧ (s.setCx c x).acc = s.acc ∧ (s.setCx c x).bus = s.bus ∧ (s.setCx c x).fresh = s.fresh ∧
    (s.setCx c x).agenda = s.agenda :=
  ⟨rfl, rfl, rfl, rfl, rfl, rfl, rfl, rfl, rfl, rfl, rfl, rfl, rfl, rfl, rfl, rfl, rfl, rfl, rfl, rfl, rfl, rfl, rfl, rfl, rfl, rfl, rfl, rfl, rfl, rfl, rfl, rfl, rfl, rfl, rfl, rfl, rfl, rfl, rfl, rfl, rfl⟩

/-- `setDi` leaves every part but `die`. -/
@[simp] theorem State.setDi_same (s : State) (d : Nat) (x : Die) :
    (s.setDi d x).mem = s.mem ∧ (s.setDi d x).poison = s.poison ∧ (s.setDi d x).soft = s.soft ∧ (s.setDi d x).tags = s.tags ∧
    (s.setDi d x).thr = s.thr ∧ (s.setDi d x).gang = s.gang ∧ (s.setDi d x).blk = s.blk ∧ (s.setDi d x).grid = s.grid ∧
    (s.setDi d x).core = s.core ∧ (s.setDi d x).ccl = s.ccl ∧ (s.setDi d x).ctx = s.ctx ∧ (s.setDi d x).held = s.held ∧
    (s.setDi d x).faults = s.faults ∧ (s.setDi d x).token = s.token ∧ (s.setDi d x).tlb = s.tlb ∧ (s.setDi d x).locks = s.locks ∧
    (s.setDi d x).q = s.q ∧ (s.setDi d x).cursor = s.cursor ∧ (s.setDi d x).watch = s.watch ∧ (s.setDi d x).pkts = s.pkts ∧
    (s.setDi d x).handles = s.handles ∧ (s.setDi d x).splices = s.splices ∧ (s.setDi d x).node = s.node ∧ (s.setDi d x).recs = s.recs ∧
    (s.setDi d x).slot = s.slot ∧ (s.setDi d x).edges = s.edges ∧ (s.setDi d x).edgeOrder = s.edgeOrder ∧ (s.setDi d x).pkg = s.pkg ∧
    (s.setDi d x).pow = s.pow ∧ (s.setDi d x).fab = s.fab ∧ (s.setDi d x).mg = s.mg ∧ (s.setDi d x).hres = s.hres ∧
    (s.setDi d x).time = s.time ∧ (s.setDi d x).gridCtr = s.gridCtr ∧ (s.setDi d x).blkCtr = s.blkCtr ∧ (s.setDi d x).turn = s.turn ∧
    (s.setDi d x).eturn = s.eturn ∧ (s.setDi d x).acc = s.acc ∧ (s.setDi d x).bus = s.bus ∧ (s.setDi d x).fresh = s.fresh ∧
    (s.setDi d x).agenda = s.agenda :=
  ⟨rfl, rfl, rfl, rfl, rfl, rfl, rfl, rfl, rfl, rfl, rfl, rfl, rfl, rfl, rfl, rfl, rfl, rfl, rfl, rfl, rfl, rfl, rfl, rfl, rfl, rfl, rfl, rfl, rfl, rfl, rfl, rfl, rfl, rfl, rfl, rfl, rfl, rfl, rfl, rfl, rfl⟩

/-- `setSl` leaves every part but `slot`. -/
@[simp] theorem State.setSl_same (s : State) (n : Nat) (x : TSlot) :
    (s.setSl n x).mem = s.mem ∧ (s.setSl n x).poison = s.poison ∧ (s.setSl n x).soft = s.soft ∧ (s.setSl n x).tags = s.tags ∧
    (s.setSl n x).thr = s.thr ∧ (s.setSl n x).gang = s.gang ∧ (s.setSl n x).blk = s.blk ∧ (s.setSl n x).grid = s.grid ∧
    (s.setSl n x).core = s.core ∧ (s.setSl n x).ccl = s.ccl ∧ (s.setSl n x).ctx = s.ctx ∧ (s.setSl n x).held = s.held ∧
    (s.setSl n x).faults = s.faults ∧ (s.setSl n x).token = s.token ∧ (s.setSl n x).tlb = s.tlb ∧ (s.setSl n x).locks = s.locks ∧
    (s.setSl n x).q = s.q ∧ (s.setSl n x).cursor = s.cursor ∧ (s.setSl n x).watch = s.watch ∧ (s.setSl n x).pkts = s.pkts ∧
    (s.setSl n x).handles = s.handles ∧ (s.setSl n x).splices = s.splices ∧ (s.setSl n x).node = s.node ∧ (s.setSl n x).recs = s.recs ∧
    (s.setSl n x).die = s.die ∧ (s.setSl n x).edges = s.edges ∧ (s.setSl n x).edgeOrder = s.edgeOrder ∧ (s.setSl n x).pkg = s.pkg ∧
    (s.setSl n x).pow = s.pow ∧ (s.setSl n x).fab = s.fab ∧ (s.setSl n x).mg = s.mg ∧ (s.setSl n x).hres = s.hres ∧
    (s.setSl n x).time = s.time ∧ (s.setSl n x).gridCtr = s.gridCtr ∧ (s.setSl n x).blkCtr = s.blkCtr ∧ (s.setSl n x).turn = s.turn ∧
    (s.setSl n x).eturn = s.eturn ∧ (s.setSl n x).acc = s.acc ∧ (s.setSl n x).bus = s.bus ∧ (s.setSl n x).fresh = s.fresh ∧
    (s.setSl n x).agenda = s.agenda :=
  ⟨rfl, rfl, rfl, rfl, rfl, rfl, rfl, rfl, rfl, rfl, rfl, rfl, rfl, rfl, rfl, rfl, rfl, rfl, rfl, rfl, rfl, rfl, rfl, rfl, rfl, rfl, rfl, rfl, rfl, rfl, rfl, rfl, rfl, rfl, rfl, rfl, rfl, rfl, rfl, rfl, rfl⟩

/-- `setPt` leaves every part but `fab`. -/
@[simp] theorem State.setPt_same (s : State) (p : Nat) (x : Port) :
    (s.setPt p x).mem = s.mem ∧ (s.setPt p x).poison = s.poison ∧ (s.setPt p x).soft = s.soft ∧ (s.setPt p x).tags = s.tags ∧
    (s.setPt p x).thr = s.thr ∧ (s.setPt p x).gang = s.gang ∧ (s.setPt p x).blk = s.blk ∧ (s.setPt p x).grid = s.grid ∧
    (s.setPt p x).core = s.core ∧ (s.setPt p x).ccl = s.ccl ∧ (s.setPt p x).ctx = s.ctx ∧ (s.setPt p x).held = s.held ∧
    (s.setPt p x).faults = s.faults ∧ (s.setPt p x).token = s.token ∧ (s.setPt p x).tlb = s.tlb ∧ (s.setPt p x).locks = s.locks ∧
    (s.setPt p x).q = s.q ∧ (s.setPt p x).cursor = s.cursor ∧ (s.setPt p x).watch = s.watch ∧ (s.setPt p x).pkts = s.pkts ∧
    (s.setPt p x).handles = s.handles ∧ (s.setPt p x).splices = s.splices ∧ (s.setPt p x).node = s.node ∧ (s.setPt p x).recs = s.recs ∧
    (s.setPt p x).slot = s.slot ∧ (s.setPt p x).die = s.die ∧ (s.setPt p x).edges = s.edges ∧ (s.setPt p x).edgeOrder = s.edgeOrder ∧
    (s.setPt p x).pkg = s.pkg ∧ (s.setPt p x).pow = s.pow ∧ (s.setPt p x).mg = s.mg ∧ (s.setPt p x).hres = s.hres ∧
    (s.setPt p x).time = s.time ∧ (s.setPt p x).gridCtr = s.gridCtr ∧ (s.setPt p x).blkCtr = s.blkCtr ∧ (s.setPt p x).turn = s.turn ∧
    (s.setPt p x).eturn = s.eturn ∧ (s.setPt p x).acc = s.acc ∧ (s.setPt p x).bus = s.bus ∧ (s.setPt p x).fresh = s.fresh ∧
    (s.setPt p x).agenda = s.agenda :=
  ⟨rfl, rfl, rfl, rfl, rfl, rfl, rfl, rfl, rfl, rfl, rfl, rfl, rfl, rfl, rfl, rfl, rfl, rfl, rfl, rfl, rfl, rfl, rfl, rfl, rfl, rfl, rfl, rfl, rfl, rfl, rfl, rfl, rfl, rfl, rfl, rfl, rfl, rfl, rfl, rfl, rfl⟩

/-- `setMbx` leaves every part but `mg`. -/
@[simp] theorem State.setMbx_same (s : State) (n : Nat) (x : Mbx) :
    (s.setMbx n x).mem = s.mem ∧ (s.setMbx n x).poison = s.poison ∧ (s.setMbx n x).soft = s.soft ∧ (s.setMbx n x).tags = s.tags ∧
    (s.setMbx n x).thr = s.thr ∧ (s.setMbx n x).gang = s.gang ∧ (s.setMbx n x).blk = s.blk ∧ (s.setMbx n x).grid = s.grid ∧
    (s.setMbx n x).core = s.core ∧ (s.setMbx n x).ccl = s.ccl ∧ (s.setMbx n x).ctx = s.ctx ∧ (s.setMbx n x).held = s.held ∧
    (s.setMbx n x).faults = s.faults ∧ (s.setMbx n x).token = s.token ∧ (s.setMbx n x).tlb = s.tlb ∧ (s.setMbx n x).locks = s.locks ∧
    (s.setMbx n x).q = s.q ∧ (s.setMbx n x).cursor = s.cursor ∧ (s.setMbx n x).watch = s.watch ∧ (s.setMbx n x).pkts = s.pkts ∧
    (s.setMbx n x).handles = s.handles ∧ (s.setMbx n x).splices = s.splices ∧ (s.setMbx n x).node = s.node ∧
    (s.setMbx n x).recs = s.recs ∧ (s.setMbx n x).slot = s.slot ∧ (s.setMbx n x).die = s.die ∧ (s.setMbx n x).edges = s.edges ∧
    (s.setMbx n x).edgeOrder = s.edgeOrder ∧ (s.setMbx n x).pkg = s.pkg ∧ (s.setMbx n x).pow = s.pow ∧ (s.setMbx n x).fab = s.fab ∧
    (s.setMbx n x).hres = s.hres ∧ (s.setMbx n x).time = s.time ∧ (s.setMbx n x).gridCtr = s.gridCtr ∧
    (s.setMbx n x).blkCtr = s.blkCtr ∧ (s.setMbx n x).turn = s.turn ∧ (s.setMbx n x).eturn = s.eturn ∧ (s.setMbx n x).acc = s.acc ∧
    (s.setMbx n x).bus = s.bus ∧ (s.setMbx n x).fresh = s.fresh ∧ (s.setMbx n x).agenda = s.agenda :=
  ⟨rfl, rfl, rfl, rfl, rfl, rfl, rfl, rfl, rfl, rfl, rfl, rfl, rfl, rfl, rfl, rfl, rfl, rfl, rfl, rfl, rfl, rfl, rfl, rfl, rfl, rfl, rfl, rfl, rfl, rfl, rfl, rfl, rfl, rfl, rfl, rfl, rfl, rfl, rfl, rfl, rfl⟩

/-- `modTh` leaves every part but `thr`. -/
@[simp] theorem State.modTh_same (s : State) (tid : Nat) (f : Thr → Thr) :
    (s.modTh tid f).mem = s.mem ∧ (s.modTh tid f).poison = s.poison ∧ (s.modTh tid f).soft = s.soft ∧ (s.modTh tid f).tags = s.tags ∧
    (s.modTh tid f).gang = s.gang ∧ (s.modTh tid f).blk = s.blk ∧ (s.modTh tid f).grid = s.grid ∧ (s.modTh tid f).core = s.core ∧
    (s.modTh tid f).ccl = s.ccl ∧ (s.modTh tid f).ctx = s.ctx ∧ (s.modTh tid f).held = s.held ∧ (s.modTh tid f).faults = s.faults ∧
    (s.modTh tid f).token = s.token ∧ (s.modTh tid f).tlb = s.tlb ∧ (s.modTh tid f).locks = s.locks ∧ (s.modTh tid f).q = s.q ∧
    (s.modTh tid f).cursor = s.cursor ∧ (s.modTh tid f).watch = s.watch ∧ (s.modTh tid f).pkts = s.pkts ∧
    (s.modTh tid f).handles = s.handles ∧ (s.modTh tid f).splices = s.splices ∧ (s.modTh tid f).node = s.node ∧
    (s.modTh tid f).recs = s.recs ∧ (s.modTh tid f).slot = s.slot ∧ (s.modTh tid f).die = s.die ∧ (s.modTh tid f).edges = s.edges ∧
    (s.modTh tid f).edgeOrder = s.edgeOrder ∧ (s.modTh tid f).pkg = s.pkg ∧ (s.modTh tid f).pow = s.pow ∧ (s.modTh tid f).fab = s.fab ∧
    (s.modTh tid f).mg = s.mg ∧ (s.modTh tid f).hres = s.hres ∧ (s.modTh tid f).time = s.time ∧ (s.modTh tid f).gridCtr = s.gridCtr ∧
    (s.modTh tid f).blkCtr = s.blkCtr ∧ (s.modTh tid f).turn = s.turn ∧ (s.modTh tid f).eturn = s.eturn ∧ (s.modTh tid f).acc = s.acc ∧
    (s.modTh tid f).bus = s.bus ∧ (s.modTh tid f).fresh = s.fresh ∧ (s.modTh tid f).agenda = s.agenda :=
  ⟨rfl, rfl, rfl, rfl, rfl, rfl, rfl, rfl, rfl, rfl, rfl, rfl, rfl, rfl, rfl, rfl, rfl, rfl, rfl, rfl, rfl, rfl, rfl, rfl, rfl, rfl, rfl, rfl, rfl, rfl, rfl, rfl, rfl, rfl, rfl, rfl, rfl, rfl, rfl, rfl, rfl⟩

/-- `modGg` leaves every part but `gang`. -/
@[simp] theorem State.modGg_same (s : State) (k : Nat) (f : Gang → Gang) :
    (s.modGg k f).mem = s.mem ∧ (s.modGg k f).poison = s.poison ∧ (s.modGg k f).soft = s.soft ∧ (s.modGg k f).tags = s.tags ∧
    (s.modGg k f).thr = s.thr ∧ (s.modGg k f).blk = s.blk ∧ (s.modGg k f).grid = s.grid ∧ (s.modGg k f).core = s.core ∧
    (s.modGg k f).ccl = s.ccl ∧ (s.modGg k f).ctx = s.ctx ∧ (s.modGg k f).held = s.held ∧ (s.modGg k f).faults = s.faults ∧
    (s.modGg k f).token = s.token ∧ (s.modGg k f).tlb = s.tlb ∧ (s.modGg k f).locks = s.locks ∧ (s.modGg k f).q = s.q ∧
    (s.modGg k f).cursor = s.cursor ∧ (s.modGg k f).watch = s.watch ∧ (s.modGg k f).pkts = s.pkts ∧ (s.modGg k f).handles = s.handles ∧
    (s.modGg k f).splices = s.splices ∧ (s.modGg k f).node = s.node ∧ (s.modGg k f).recs = s.recs ∧ (s.modGg k f).slot = s.slot ∧
    (s.modGg k f).die = s.die ∧ (s.modGg k f).edges = s.edges ∧ (s.modGg k f).edgeOrder = s.edgeOrder ∧ (s.modGg k f).pkg = s.pkg ∧
    (s.modGg k f).pow = s.pow ∧ (s.modGg k f).fab = s.fab ∧ (s.modGg k f).mg = s.mg ∧ (s.modGg k f).hres = s.hres ∧
    (s.modGg k f).time = s.time ∧ (s.modGg k f).gridCtr = s.gridCtr ∧ (s.modGg k f).blkCtr = s.blkCtr ∧ (s.modGg k f).turn = s.turn ∧
    (s.modGg k f).eturn = s.eturn ∧ (s.modGg k f).acc = s.acc ∧ (s.modGg k f).bus = s.bus ∧ (s.modGg k f).fresh = s.fresh ∧
    (s.modGg k f).agenda = s.agenda :=
  ⟨rfl, rfl, rfl, rfl, rfl, rfl, rfl, rfl, rfl, rfl, rfl, rfl, rfl, rfl, rfl, rfl, rfl, rfl, rfl, rfl, rfl, rfl, rfl, rfl, rfl, rfl, rfl, rfl, rfl, rfl, rfl, rfl, rfl, rfl, rfl, rfl, rfl, rfl, rfl, rfl, rfl⟩

/-- `modCo` leaves every part but `core`. -/
@[simp] theorem State.modCo_same (s : State) (c : Nat) (f : Core → Core) :
    (s.modCo c f).mem = s.mem ∧ (s.modCo c f).poison = s.poison ∧ (s.modCo c f).soft = s.soft ∧ (s.modCo c f).tags = s.tags ∧
    (s.modCo c f).thr = s.thr ∧ (s.modCo c f).gang = s.gang ∧ (s.modCo c f).blk = s.blk ∧ (s.modCo c f).grid = s.grid ∧
    (s.modCo c f).ccl = s.ccl ∧ (s.modCo c f).ctx = s.ctx ∧ (s.modCo c f).held = s.held ∧ (s.modCo c f).faults = s.faults ∧
    (s.modCo c f).token = s.token ∧ (s.modCo c f).tlb = s.tlb ∧ (s.modCo c f).locks = s.locks ∧ (s.modCo c f).q = s.q ∧
    (s.modCo c f).cursor = s.cursor ∧ (s.modCo c f).watch = s.watch ∧ (s.modCo c f).pkts = s.pkts ∧ (s.modCo c f).handles = s.handles ∧
    (s.modCo c f).splices = s.splices ∧ (s.modCo c f).node = s.node ∧ (s.modCo c f).recs = s.recs ∧ (s.modCo c f).slot = s.slot ∧
    (s.modCo c f).die = s.die ∧ (s.modCo c f).edges = s.edges ∧ (s.modCo c f).edgeOrder = s.edgeOrder ∧ (s.modCo c f).pkg = s.pkg ∧
    (s.modCo c f).pow = s.pow ∧ (s.modCo c f).fab = s.fab ∧ (s.modCo c f).mg = s.mg ∧ (s.modCo c f).hres = s.hres ∧
    (s.modCo c f).time = s.time ∧ (s.modCo c f).gridCtr = s.gridCtr ∧ (s.modCo c f).blkCtr = s.blkCtr ∧ (s.modCo c f).turn = s.turn ∧
    (s.modCo c f).eturn = s.eturn ∧ (s.modCo c f).acc = s.acc ∧ (s.modCo c f).bus = s.bus ∧ (s.modCo c f).fresh = s.fresh ∧
    (s.modCo c f).agenda = s.agenda :=
  ⟨rfl, rfl, rfl, rfl, rfl, rfl, rfl, rfl, rfl, rfl, rfl, rfl, rfl, rfl, rfl, rfl, rfl, rfl, rfl, rfl, rfl, rfl, rfl, rfl, rfl, rfl, rfl, rfl, rfl, rfl, rfl, rfl, rfl, rfl, rfl, rfl, rfl, rfl, rfl, rfl, rfl⟩

/-- `modCx` leaves every part but `ctx`. -/
@[simp] theorem State.modCx_same (s : State) (c : Nat) (f : Ctx → Ctx) :
    (s.modCx c f).mem = s.mem ∧ (s.modCx c f).poison = s.poison ∧ (s.modCx c f).soft = s.soft ∧ (s.modCx c f).tags = s.tags ∧
    (s.modCx c f).thr = s.thr ∧ (s.modCx c f).gang = s.gang ∧ (s.modCx c f).blk = s.blk ∧ (s.modCx c f).grid = s.grid ∧
    (s.modCx c f).core = s.core ∧ (s.modCx c f).ccl = s.ccl ∧ (s.modCx c f).held = s.held ∧ (s.modCx c f).faults = s.faults ∧
    (s.modCx c f).token = s.token ∧ (s.modCx c f).tlb = s.tlb ∧ (s.modCx c f).locks = s.locks ∧ (s.modCx c f).q = s.q ∧
    (s.modCx c f).cursor = s.cursor ∧ (s.modCx c f).watch = s.watch ∧ (s.modCx c f).pkts = s.pkts ∧ (s.modCx c f).handles = s.handles ∧
    (s.modCx c f).splices = s.splices ∧ (s.modCx c f).node = s.node ∧ (s.modCx c f).recs = s.recs ∧ (s.modCx c f).slot = s.slot ∧
    (s.modCx c f).die = s.die ∧ (s.modCx c f).edges = s.edges ∧ (s.modCx c f).edgeOrder = s.edgeOrder ∧ (s.modCx c f).pkg = s.pkg ∧
    (s.modCx c f).pow = s.pow ∧ (s.modCx c f).fab = s.fab ∧ (s.modCx c f).mg = s.mg ∧ (s.modCx c f).hres = s.hres ∧
    (s.modCx c f).time = s.time ∧ (s.modCx c f).gridCtr = s.gridCtr ∧ (s.modCx c f).blkCtr = s.blkCtr ∧ (s.modCx c f).turn = s.turn ∧
    (s.modCx c f).eturn = s.eturn ∧ (s.modCx c f).acc = s.acc ∧ (s.modCx c f).bus = s.bus ∧ (s.modCx c f).fresh = s.fresh ∧
    (s.modCx c f).agenda = s.agenda :=
  ⟨rfl, rfl, rfl, rfl, rfl, rfl, rfl, rfl, rfl, rfl, rfl, rfl, rfl, rfl, rfl, rfl, rfl, rfl, rfl, rfl, rfl, rfl, rfl, rfl, rfl, rfl, rfl, rfl, rfl, rfl, rfl, rfl, rfl, rfl, rfl, rfl, rfl, rfl, rfl, rfl, rfl⟩

/-- `modDi` leaves every part but `die`. -/
@[simp] theorem State.modDi_same (s : State) (d : Nat) (f : Die → Die) :
    (s.modDi d f).mem = s.mem ∧ (s.modDi d f).poison = s.poison ∧ (s.modDi d f).soft = s.soft ∧ (s.modDi d f).tags = s.tags ∧
    (s.modDi d f).thr = s.thr ∧ (s.modDi d f).gang = s.gang ∧ (s.modDi d f).blk = s.blk ∧ (s.modDi d f).grid = s.grid ∧
    (s.modDi d f).core = s.core ∧ (s.modDi d f).ccl = s.ccl ∧ (s.modDi d f).ctx = s.ctx ∧ (s.modDi d f).held = s.held ∧
    (s.modDi d f).faults = s.faults ∧ (s.modDi d f).token = s.token ∧ (s.modDi d f).tlb = s.tlb ∧ (s.modDi d f).locks = s.locks ∧
    (s.modDi d f).q = s.q ∧ (s.modDi d f).cursor = s.cursor ∧ (s.modDi d f).watch = s.watch ∧ (s.modDi d f).pkts = s.pkts ∧
    (s.modDi d f).handles = s.handles ∧ (s.modDi d f).splices = s.splices ∧ (s.modDi d f).node = s.node ∧ (s.modDi d f).recs = s.recs ∧
    (s.modDi d f).slot = s.slot ∧ (s.modDi d f).edges = s.edges ∧ (s.modDi d f).edgeOrder = s.edgeOrder ∧ (s.modDi d f).pkg = s.pkg ∧
    (s.modDi d f).pow = s.pow ∧ (s.modDi d f).fab = s.fab ∧ (s.modDi d f).mg = s.mg ∧ (s.modDi d f).hres = s.hres ∧
    (s.modDi d f).time = s.time ∧ (s.modDi d f).gridCtr = s.gridCtr ∧ (s.modDi d f).blkCtr = s.blkCtr ∧ (s.modDi d f).turn = s.turn ∧
    (s.modDi d f).eturn = s.eturn ∧ (s.modDi d f).acc = s.acc ∧ (s.modDi d f).bus = s.bus ∧ (s.modDi d f).fresh = s.fresh ∧
    (s.modDi d f).agenda = s.agenda :=
  ⟨rfl, rfl, rfl, rfl, rfl, rfl, rfl, rfl, rfl, rfl, rfl, rfl, rfl, rfl, rfl, rfl, rfl, rfl, rfl, rfl, rfl, rfl, rfl, rfl, rfl, rfl, rfl, rfl, rfl, rfl, rfl, rfl, rfl, rfl, rfl, rfl, rfl, rfl, rfl, rfl, rfl⟩

/-- `modSl` leaves every part but `slot`. -/
@[simp] theorem State.modSl_same (s : State) (n : Nat) (f : TSlot → TSlot) :
    (s.modSl n f).mem = s.mem ∧ (s.modSl n f).poison = s.poison ∧ (s.modSl n f).soft = s.soft ∧ (s.modSl n f).tags = s.tags ∧
    (s.modSl n f).thr = s.thr ∧ (s.modSl n f).gang = s.gang ∧ (s.modSl n f).blk = s.blk ∧ (s.modSl n f).grid = s.grid ∧
    (s.modSl n f).core = s.core ∧ (s.modSl n f).ccl = s.ccl ∧ (s.modSl n f).ctx = s.ctx ∧ (s.modSl n f).held = s.held ∧
    (s.modSl n f).faults = s.faults ∧ (s.modSl n f).token = s.token ∧ (s.modSl n f).tlb = s.tlb ∧ (s.modSl n f).locks = s.locks ∧
    (s.modSl n f).q = s.q ∧ (s.modSl n f).cursor = s.cursor ∧ (s.modSl n f).watch = s.watch ∧ (s.modSl n f).pkts = s.pkts ∧
    (s.modSl n f).handles = s.handles ∧ (s.modSl n f).splices = s.splices ∧ (s.modSl n f).node = s.node ∧ (s.modSl n f).recs = s.recs ∧
    (s.modSl n f).die = s.die ∧ (s.modSl n f).edges = s.edges ∧ (s.modSl n f).edgeOrder = s.edgeOrder ∧ (s.modSl n f).pkg = s.pkg ∧
    (s.modSl n f).pow = s.pow ∧ (s.modSl n f).fab = s.fab ∧ (s.modSl n f).mg = s.mg ∧ (s.modSl n f).hres = s.hres ∧
    (s.modSl n f).time = s.time ∧ (s.modSl n f).gridCtr = s.gridCtr ∧ (s.modSl n f).blkCtr = s.blkCtr ∧ (s.modSl n f).turn = s.turn ∧
    (s.modSl n f).eturn = s.eturn ∧ (s.modSl n f).acc = s.acc ∧ (s.modSl n f).bus = s.bus ∧ (s.modSl n f).fresh = s.fresh ∧
    (s.modSl n f).agenda = s.agenda :=
  ⟨rfl, rfl, rfl, rfl, rfl, rfl, rfl, rfl, rfl, rfl, rfl, rfl, rfl, rfl, rfl, rfl, rfl, rfl, rfl, rfl, rfl, rfl, rfl, rfl, rfl, rfl, rfl, rfl, rfl, rfl, rfl, rfl, rfl, rfl, rfl, rfl, rfl, rfl, rfl, rfl, rfl⟩

/-- `ras` leaves every part but `mg`. -/
@[simp] theorem State.ras_same (s : State) (kind unit num loc : Nat) :
    (s.ras kind unit num loc).mem = s.mem ∧ (s.ras kind unit num loc).poison = s.poison ∧ (s.ras kind unit num loc).soft = s.soft ∧
    (s.ras kind unit num loc).tags = s.tags ∧ (s.ras kind unit num loc).thr = s.thr ∧ (s.ras kind unit num loc).gang = s.gang ∧
    (s.ras kind unit num loc).blk = s.blk ∧ (s.ras kind unit num loc).grid = s.grid ∧ (s.ras kind unit num loc).core = s.core ∧
    (s.ras kind unit num loc).ccl = s.ccl ∧ (s.ras kind unit num loc).ctx = s.ctx ∧ (s.ras kind unit num loc).held = s.held ∧
    (s.ras kind unit num loc).faults = s.faults ∧ (s.ras kind unit num loc).token = s.token ∧ (s.ras kind unit num loc).tlb = s.tlb ∧
    (s.ras kind unit num loc).locks = s.locks ∧ (s.ras kind unit num loc).q = s.q ∧ (s.ras kind unit num loc).cursor = s.cursor ∧
    (s.ras kind unit num loc).watch = s.watch ∧ (s.ras kind unit num loc).pkts = s.pkts ∧
    (s.ras kind unit num loc).handles = s.handles ∧ (s.ras kind unit num loc).splices = s.splices ∧
    (s.ras kind unit num loc).node = s.node ∧ (s.ras kind unit num loc).recs = s.recs ∧ (s.ras kind unit num loc).slot = s.slot ∧
    (s.ras kind unit num loc).die = s.die ∧ (s.ras kind unit num loc).edges = s.edges ∧
    (s.ras kind unit num loc).edgeOrder = s.edgeOrder ∧ (s.ras kind unit num loc).pkg = s.pkg ∧ (s.ras kind unit num loc).pow = s.pow ∧
    (s.ras kind unit num loc).fab = s.fab ∧ (s.ras kind unit num loc).hres = s.hres ∧ (s.ras kind unit num loc).time = s.time ∧
    (s.ras kind unit num loc).gridCtr = s.gridCtr ∧ (s.ras kind unit num loc).blkCtr = s.blkCtr ∧
    (s.ras kind unit num loc).turn = s.turn ∧ (s.ras kind unit num loc).eturn = s.eturn ∧ (s.ras kind unit num loc).acc = s.acc ∧
    (s.ras kind unit num loc).bus = s.bus ∧ (s.ras kind unit num loc).fresh = s.fresh ∧ (s.ras kind unit num loc).agenda = s.agenda :=
  ⟨rfl, rfl, rfl, rfl, rfl, rfl, rfl, rfl, rfl, rfl, rfl, rfl, rfl, rfl, rfl, rfl, rfl, rfl, rfl, rfl, rfl, rfl, rfl, rfl, rfl, rfl, rfl, rfl, rfl, rfl, rfl, rfl, rfl, rfl, rfl, rfl, rfl, rfl, rfl, rfl, rfl⟩

/-- `setTh` read back. -/
@[simp] theorem State.setTh_th (s : State) (tid : Nat) (t : Thr) : (s.setTh tid t).th tid = t := Tbl.get_set_same _ _ _ _
/-- `setTh` leaves the other entries. -/
theorem State.setTh_th_ne (s : State) (tid : Nat) (t : Thr) {m : Nat} (h : m ≠ tid) : (s.setTh tid t).th m = s.th m :=
  Tbl.get_set_ne _ _ _ h

/-- `setGg` read back. -/
@[simp] theorem State.setGg_gg (s : State) (k : Nat) (g : Gang) : (s.setGg k g).gg k = g := Tbl.get_set_same _ _ _ _
/-- `setGg` leaves the other entries. -/
theorem State.setGg_gg_ne (s : State) (k : Nat) (g : Gang) {m : Nat} (h : m ≠ k) : (s.setGg k g).gg m = s.gg m :=
  Tbl.get_set_ne _ _ _ h

/-- `setBk` read back. -/
@[simp] theorem State.setBk_bk (s : State) (b : Nat) (x : Blk) : (s.setBk b x).bk b = x := Tbl.get_set_same _ _ _ _
/-- `setBk` leaves the other entries. -/
theorem State.setBk_bk_ne (s : State) (b : Nat) (x : Blk) {m : Nat} (h : m ≠ b) : (s.setBk b x).bk m = s.bk m :=
  Tbl.get_set_ne _ _ _ h

/-- `setGr` read back. -/
@[simp] theorem State.setGr_gr (s : State) (g : Nat) (x : Grid) : (s.setGr g x).gr g = x := Tbl.get_set_same _ _ _ _
/-- `setGr` leaves the other entries. -/
theorem State.setGr_gr_ne (s : State) (g : Nat) (x : Grid) {m : Nat} (h : m ≠ g) : (s.setGr g x).gr m = s.gr m :=
  Tbl.get_set_ne _ _ _ h

/-- `setCo` read back. -/
@[simp] theorem State.setCo_co (s : State) (c : Nat) (x : Core) : (s.setCo c x).co c = x := Tbl.get_set_same _ _ _ _
/-- `setCo` leaves the other entries. -/
theorem State.setCo_co_ne (s : State) (c : Nat) (x : Core) {m : Nat} (h : m ≠ c) : (s.setCo c x).co m = s.co m :=
  Tbl.get_set_ne _ _ _ h

/-- `setCc` read back. -/
@[simp] theorem State.setCc_cc (s : State) (c : Nat) (x : Ccl) : (s.setCc c x).cc c = x := Tbl.get_set_same _ _ _ _
/-- `setCc` leaves the other entries. -/
theorem State.setCc_cc_ne (s : State) (c : Nat) (x : Ccl) {m : Nat} (h : m ≠ c) : (s.setCc c x).cc m = s.cc m :=
  Tbl.get_set_ne _ _ _ h

/-- `setCx` read back. -/
@[simp] theorem State.setCx_cx (s : State) (c : Nat) (x : Ctx) : (s.setCx c x).cx c = x := Tbl.get_set_same _ _ _ _
/-- `setCx` leaves the other entries. -/
theorem State.setCx_cx_ne (s : State) (c : Nat) (x : Ctx) {m : Nat} (h : m ≠ c) : (s.setCx c x).cx m = s.cx m :=
  Tbl.get_set_ne _ _ _ h

/-- `setDi` read back. -/
@[simp] theorem State.setDi_di (s : State) (d : Nat) (x : Die) : (s.setDi d x).di d = x := Tbl.get_set_same _ _ _ _
/-- `setDi` leaves the other entries. -/
theorem State.setDi_di_ne (s : State) (d : Nat) (x : Die) {m : Nat} (h : m ≠ d) : (s.setDi d x).di m = s.di m :=
  Tbl.get_set_ne _ _ _ h

/-- `setSl` read back. -/
@[simp] theorem State.setSl_sl (s : State) (n : Nat) (x : TSlot) : (s.setSl n x).sl n = x := Tbl.get_set_same _ _ _ _
/-- `setSl` leaves the other entries. -/
theorem State.setSl_sl_ne (s : State) (n : Nat) (x : TSlot) {m : Nat} (h : m ≠ n) : (s.setSl n x).sl m = s.sl m :=
  Tbl.get_set_ne _ _ _ h

/-- `setPt` read back. -/
@[simp] theorem State.setPt_pt (s : State) (p : Nat) (x : Port) : (s.setPt p x).pt p = x := Tbl.get_set_same _ _ _ _
/-- `setPt` leaves the other entries. -/
theorem State.setPt_pt_ne (s : State) (p : Nat) (x : Port) {m : Nat} (h : m ≠ p) : (s.setPt p x).pt m = s.pt m :=
  Tbl.get_set_ne _ _ _ h

/-- `modTh` read back. -/
@[simp] theorem State.modTh_th (s : State) (k : Nat) (f : Thr → Thr) : (s.modTh k f).th k = f (s.th k) := State.setTh_th _ _ _
/-- `modTh` leaves the other entries. -/
theorem State.modTh_th_ne (s : State) (k : Nat) (f : Thr → Thr) {m : Nat} (h : m ≠ k) : (s.modTh k f).th m = s.th m :=
  State.setTh_th_ne _ _ _ h

/-- `modGg` read back. -/
@[simp] theorem State.modGg_gg (s : State) (k : Nat) (f : Gang → Gang) : (s.modGg k f).gg k = f (s.gg k) := State.setGg_gg _ _ _
/-- `modGg` leaves the other entries. -/
theorem State.modGg_gg_ne (s : State) (k : Nat) (f : Gang → Gang) {m : Nat} (h : m ≠ k) : (s.modGg k f).gg m = s.gg m :=
  State.setGg_gg_ne _ _ _ h

/-- `modCo` read back. -/
@[simp] theorem State.modCo_co (s : State) (k : Nat) (f : Core → Core) : (s.modCo k f).co k = f (s.co k) := State.setCo_co _ _ _
/-- `modCo` leaves the other entries. -/
theorem State.modCo_co_ne (s : State) (k : Nat) (f : Core → Core) {m : Nat} (h : m ≠ k) : (s.modCo k f).co m = s.co m :=
  State.setCo_co_ne _ _ _ h

/-- `modCx` read back. -/
@[simp] theorem State.modCx_cx (s : State) (k : Nat) (f : Ctx → Ctx) : (s.modCx k f).cx k = f (s.cx k) := State.setCx_cx _ _ _
/-- `modCx` leaves the other entries. -/
theorem State.modCx_cx_ne (s : State) (k : Nat) (f : Ctx → Ctx) {m : Nat} (h : m ≠ k) : (s.modCx k f).cx m = s.cx m :=
  State.setCx_cx_ne _ _ _ h

/-- `modDi` read back. -/
@[simp] theorem State.modDi_di (s : State) (k : Nat) (f : Die → Die) : (s.modDi k f).di k = f (s.di k) := State.setDi_di _ _ _
/-- `modDi` leaves the other entries. -/
theorem State.modDi_di_ne (s : State) (k : Nat) (f : Die → Die) {m : Nat} (h : m ≠ k) : (s.modDi k f).di m = s.di m :=
  State.setDi_di_ne _ _ _ h

/-- `modSl` read back. -/
@[simp] theorem State.modSl_sl (s : State) (k : Nat) (f : TSlot → TSlot) : (s.modSl k f).sl k = f (s.sl k) := State.setSl_sl _ _ _
/-- `modSl` leaves the other entries. -/
theorem State.modSl_sl_ne (s : State) (k : Nat) (f : TSlot → TSlot) {m : Nat} (h : m ≠ k) : (s.modSl k f).sl m = s.sl m :=
  State.setSl_sl_ne _ _ _ h

end Sys2Proof.Machine
end

