-- ==== Sys2Proof/Laws/Ops.lean ====
section
/-!
SUPPORT. What the shared operations of a slot can do: each names the parts of the state that it may change, and what it leaves of a thread.
-/
namespace Sys2Proof.Machine

/-- What every step of a fold leaves, the fold leaves. -/
theorem foldl_keep {α β γ : Type} {f : α → β → α} {p : α → γ} (h : ∀ a x, p (f a x) = p a) (l : List β) (a : α) :
    p (l.foldl f a) = p a := by
  induction l generalizing a with
  | nil => rfl
  | cons x l ih => rw [List.foldl_cons, ih, h]

/-- A fold whose steps change nothing changes nothing. -/
theorem foldl_fix {α β : Type} {f : α → β → α} {l : List β} {a : α} (h : ∀ x ∈ l, f a x = a) : l.foldl f a = a := by
  induction l with
  | nil => rfl
  | cons x l ih => rw [List.foldl_cons, h x List.mem_cons_self]; exact ih fun y hy => h y (List.mem_cons_of_mem _ hy)

theorem SlotOnly.refl (s : State) : SlotOnly s s := ⟨rfl⟩

theorem SlotOnly.trans {s t u : State} (h : SlotOnly s t) (k : SlotOnly t u) : SlotOnly s u := by
  constructor; rw [k.same, h.same]

theorem State.onlySlot_foldl {β : Type} {f : State → β → State} (h : ∀ s x, SlotOnly s (f s x)) (l : List β) (s : State) :
    SlotOnly s (l.foldl f s) := by
  induction l generalizing s with
  | nil => exact SlotOnly.refl s
  | cons x l ih => exact (h s x).trans (ih _)

theorem State.onlySlot_modTh (s : State) (t : Nat) (f : Thr → Thr) : SlotOnly s (s.modTh t f) := ⟨rfl⟩
theorem State.onlySlot_modGg (s : State) (k : Nat) (f : Gang → Gang) : SlotOnly s (s.modGg k f) := ⟨rfl⟩
theorem State.onlySlot_setGg (s : State) (k : Nat) (g : Gang) : SlotOnly s (s.setGg k g) := ⟨rfl⟩
theorem State.onlySlot_setTh (s : State) (k : Nat) (t : Thr) : SlotOnly s (s.setTh k t) := ⟨rfl⟩
theorem State.onlySlot_modCo (s : State) (k : Nat) (f : Core → Core) : SlotOnly s (s.modCo k f) := ⟨rfl⟩
theorem State.onlySlot_ras (s : State) (a b c d : Nat) : SlotOnly s (s.ras a b c d) := ⟨rfl⟩

theorem State.onlySlot_modRes (s : State) (t : Nat) (f : Thr → Thr) : SlotOnly s (s.modRes t f) := by
  unfold State.modRes; split
  · exact s.onlySlot_modTh t f
  · exact SlotOnly.refl s

theorem State.onlySlot_stopThread (s : State) (t r n : Nat) : SlotOnly s (s.stopThread t r n) := ⟨rfl⟩

/-- Errors found by a slot change gangs and the log (R118). -/
theorem State.onlySlot_markLatent (s : State) (core : Nat) (ms act rs : List Nat) : SlotOnly s (s.markLatent core ms act rs) := by
  unfold State.markLatent
  refine State.onlySlot_foldl (fun s t => ?_) ms s
  dsimp only
  · refine State.onlySlot_foldl (fun s r => ?_) rs s
    split
    · exact (s.onlySlot_setGg _ _).trans (State.onlySlot_ras _ _ _ _ _)
    · split
      · exact State.onlySlot_ras _ _ _ _ _
      · exact SlotOnly.refl s

/-- Registers written on both lanes of a word change gangs only (R118). -/
theorem State.onlySlot_clearPoison (s : State) (act rs : List Nat) : SlotOnly s (s.clearPoison act rs) := by
  unfold State.clearPoison
  refine State.onlySlot_foldl (fun s t => ?_) act s
  dsimp only
  split
  · exact s.onlySlot_modGg _ _
  · exact SlotOnly.refl s

/-- The debugger's halt after one slot (R390). -/
theorem State.onlySlot_stepHalt (s : State) (ms : List Nat) : SlotOnly s (s.stepHalt ms).2 :=
  State.onlySlot_foldl (fun s t => s.onlySlot_stopThread t 1 0) _ s

/-- The end of a slot changes threads, gangs, the core's group and the debug queues (R86, R87, R106). -/
theorem State.onlySlot_endSlot (s : State) (e : Env) (l g : List Nat) : SlotOnly s (s.endSlot e l g) := by
  unfold State.endSlot
  dsimp only
  have h : SlotOnly s (State.stepHalt (e.grp.members.foldl (fun s tid => s.modRes tid fun t =>
      if g.contains tid then t else t.endSlot e.grp (l.contains tid))
      (s.clearPoison e.active (e.body.writes e.op))) e.grp.members).2 :=
    (s.onlySlot_clearPoison _ _).trans
      ((State.onlySlot_foldl (fun s t => s.onlySlot_modRes _ _) _ _).trans (State.onlySlot_stepHalt _ _))
  split
  · exact h.trans (State.onlySlot_modCo _ _ _)
  · exact h.trans (State.onlySlot_modCo _ _ _)

/-! ### What a thread keeps -/

/-- A view of a thread that a change of some thread keeps is kept of every thread. -/
theorem State.view_modTh {α : Type} (p : Thr → α) (s : State) (t m : Nat) (f : Thr → Thr) (h : ∀ x, p (f x) = p x) :
    p ((s.modTh t f).th m) = p (s.th m) := by
  by_cases e : m = t
  · subst e; rw [State.modTh_th, h]
  · rw [State.modTh_th_ne _ _ _ e]

theorem State.view_modRes {α : Type} (p : Thr → α) (s : State) (t m : Nat) (f : Thr → Thr) (h : ∀ x, p (f x) = p x) :
    p ((s.modRes t f).th m) = p (s.th m) := by
  unfold State.modRes; split
  · exact s.view_modTh p t m f h
  · rfl

theorem State.view_gang {α : Type} (p : Thr → α) (s t : State) (m : Nat) (h : t.thr = s.thr) : p (t.th m) = p (s.th m) := by
  unfold State.th; rw [h]

theorem State.markLatent_thr (s : State) (core : Nat) (ms act rs : List Nat) : (s.markLatent core ms act rs).thr = s.thr := by
  unfold State.markLatent
  refine foldl_keep (p := State.thr) (fun s t => ?_) ms s
  refine foldl_keep (p := State.thr) (fun s r => ?_) rs s
  dsimp only
  split
  · rfl
  · split <;> rfl

theorem State.markLatent_core (s : State) (core : Nat) (ms act rs : List Nat) : (s.markLatent core ms act rs).core = s.core := by
  unfold State.markLatent
  refine foldl_keep (p := State.core) (fun s t => ?_) ms s
  refine foldl_keep (p := State.core) (fun s r => ?_) rs s
  dsimp only
  split
  · rfl
  · split <;> rfl

theorem State.clearPoison_thr (s : State) (act rs : List Nat) : (s.clearPoison act rs).thr = s.thr := by
  unfold State.clearPoison
  refine foldl_keep (p := State.thr) (fun s t => ?_) act s
  dsimp only
  split <;> rfl

/-- With no error in the register words of the members' gangs, a slot finds none (R118). -/
theorem State.markLatent_clean (s : State) (core : Nat) (ms act rs : List Nat)
    (h : ∀ m ∈ ms, (s.gg (tidGk m)).latent = [] ∧ (s.gg (tidGk m)).soft = []) : s.markLatent core ms act rs = s := by
  refine foldl_fix fun t ht => foldl_fix fun r _ => ?_
  dsimp only
  rw [(h t ht).1, (h t ht).2]
  simp

/-- A halt of threads that the debugger lets run one slot keeps a view that the halt of a stepping thread keeps. -/
theorem State.stops_view {α : Type} (p : Thr → α) (m : Nat) (h : ∀ x : Thr, x.stepping = true → p x.stop = p x) (l : List Nat) (s : State)
    (hl : m ∈ l → (s.th m).stepping = true ∨ ∃ x, s.th m = Thr.stop x) :
    p ((l.foldl (fun s t => s.stopThread t 1 0) s).th m) = p (s.th m) := by
  induction l generalizing s with
  | nil => rfl
  | cons t l ih =>
    have e : (s.stopThread t 1 0).th m = (s.modTh t Thr.stop).th m := rfl
    by_cases ht : m = t
    · subst ht
      rw [State.modTh_th] at e
      rw [List.foldl_cons, ih _ fun _ => Or.inr ⟨_, e⟩, e]
      rcases hl List.mem_cons_self with h1 | ⟨x, hx⟩
      · exact h _ h1
      · rw [hx]; rfl
    · rw [State.modTh_th_ne _ _ _ ht] at e
      rw [List.foldl_cons, ih _ (by rw [e]; exact fun h => hl (List.mem_cons_of_mem _ h)), e]

/-- The same for the halt after one slot (R390). -/
theorem State.stepHalt_view {α : Type} (p : Thr → α) (m : Nat) (h : ∀ x : Thr, x.stepping = true → p x.stop = p x) (s : State) (ms : List Nat) :
    p ((s.stepHalt ms).2.th m) = p (s.th m) := by
  refine State.stops_view p m h _ s fun hm => Or.inl ?_
  have := (List.mem_filter.mp hm).2
  simp only [Bool.and_eq_true] at this
  exact this.1.1.2

/-- What `endSlot` and a debugger's halt leave of a thread, the end of a slot leaves: registers, flags, special and trap registers. -/
theorem State.endSlot_view {α : Type} (p : Thr → α) (s : State) (e : Env) (l g : List Nat) (m : Nat)
    (h1 : ∀ x b, p (x.endSlot e.grp b) = p x)
    (h2 : ∀ x : Thr, x.stepping = true → p x.stop = p x) :
    p ((s.endSlot e l g).th m) = p (s.th m) := by
  have a : p ((State.stepHalt (e.grp.members.foldl (fun s tid => s.modRes tid fun t =>
      if g.contains tid then t else t.endSlot e.grp (l.contains tid))
      (s.clearPoison e.active (e.body.writes e.op))) e.grp.members).2.th m) = p (s.th m) := by
    refine (State.stepHalt_view p m h2 _ _).trans ?_
    refine (foldl_keep (p := fun (s : State) => p (s.th m)) (fun (s : State) t => s.view_modRes p t m _ fun x => ?_) _ _).trans ?_
    · split
      · rfl
      · exact h1 _ _
    · exact State.view_gang p _ _ m (State.clearPoison_thr _ _ _)
  unfold State.endSlot
  dsimp only
  split <;> exact a

end Sys2Proof.Machine
end

