-- ==== Sys2Proof/Laws/Slot.lean ====
section
/-!
SUPPORT. What one slot of a group can do (R85, R86, R106): what its end leaves, and everything that a word that only computes does.
-/
namespace Sys2Proof.Machine

/-! ### Residence and reads do not depend on threads -/

theorem State.resident_of (s t : State) (h : t.blk = s.blk) (m : Nat) : t.resident m = s.resident m := by
  unfold State.resident State.blkOf State.bk; rw [h]

theorem SlotOnly.blk {s t : State} (h : SlotOnly s t) : t.blk = s.blk := by rw [h.same]

theorem SlotOnly.turn {s t : State} (h : SlotOnly s t) : t.turn = s.turn := by rw [h.same]

theorem SlotOnly.resident {s t : State} (h : SlotOnly s t) (m : Nat) : t.resident m = s.resident m := s.resident_of t h.blk m

theorem State.modRes_out (s : State) (t m : Nat) (f : Thr → Thr) (h : m ≠ t) : (s.modRes t f).th m = s.th m := by
  unfold State.modRes; split
  · exact State.modTh_th_ne _ _ _ h
  · rfl

theorem State.modRes_in (s : State) (m : Nat) (f : Thr → Thr) (h : s.resident m = true) : (s.modRes m f).th m = f (s.th m) := by
  unfold State.modRes; rw [if_pos h, State.modTh_th]

theorem State.modRes_gang (s : State) (t : Nat) (f : Thr → Thr) : (s.modRes t f).gang = s.gang := by
  unfold State.modRes; split <;> rfl

theorem State.modRes_core (s : State) (t : Nat) (f : Thr → Thr) : (s.modRes t f).core = s.core := by
  unfold State.modRes; split <;> rfl

theorem State.modRes_mg (s : State) (t : Nat) (f : Thr → Thr) : (s.modRes t f).mg = s.mg := by
  unfold State.modRes; split <;> rfl

theorem State.modRes_blk (s : State) (t : Nat) (f : Thr → Thr) : (s.modRes t f).blk = s.blk := by
  unfold State.modRes; split <;> rfl

/-! ### The end of a slot -/

/-- The members after the slot, before the debugger's halts. -/
def State.moved (s : State) (e : Env) (left gone : List Nat) : State :=
  e.grp.members.foldl (fun s tid => s.modRes tid fun t => if gone.contains tid then t else t.endSlot e.grp (left.contains tid))
    (s.clearPoison e.active (e.body.writes e.op))

/-- The members that go on after a slot. -/
def State.staying (s : State) (e : Env) (left gone : List Nat) : List Nat :=
  e.grp.members.filter fun t => !left.contains t && !((s.moved e left gone).stepHalt e.grp.members).1.contains t

theorem State.endSlot_def (s : State) (e : Env) (left gone : List Nat) :
    s.endSlot e left gone =
      (if e.grp.last || (s.staying e left gone).isEmpty then ((s.moved e left gone).stepHalt e.grp.members).2.endGroup e.core
       else ((s.moved e left gone).stepHalt e.grp.members).2.modCo e.core fun c =>
        { c with grp := some { e.grp with slot := e.grp.slot + 1, members := s.staying e left gone, replays := 0, waitX := [] } }) := rfl

theorem State.stopThread_th_ne (s : State) (t r n m : Nat) (h : m ≠ t) : (s.stopThread t r n).th m = s.th m :=
  Tbl.get_set_ne _ _ _ h

/-- A thread that a fold of changes does not name is as it was. -/
theorem State.foldl_th_out {f : State → Nat → State} (h : ∀ s t m, m ≠ t → (f s t).th m = s.th m) (l : List Nat) (s : State) (m : Nat)
    (hm : m ∉ l) : (l.foldl f s).th m = s.th m := by
  induction l generalizing s with
  | nil => rfl
  | cons x l ih =>
    rw [List.foldl_cons, ih _ (fun h => hm (List.mem_cons_of_mem _ h)), h]
    exact fun e => hm (e ▸ List.mem_cons_self)

theorem State.clearPoison_unmarked (s : State) (act rs : List Nat) (k : Nat) :
    ((s.clearPoison act rs).gg k).unmarked = (s.gg k).unmarked := by
  unfold State.clearPoison
  refine foldl_keep (p := fun (s : State) => (s.gg k).unmarked) (fun s t => ?_) act s
  dsimp only
  split
  · by_cases h : k = tidGk t
    · subst h; rw [State.modGg_gg]; rfl
    · rw [State.modGg_gg_ne _ _ _ h]
  · rfl

theorem State.clearPoison_core (s : State) (act rs : List Nat) : (s.clearPoison act rs).core = s.core := by
  unfold State.clearPoison
  refine foldl_keep (p := State.core) (fun s t => ?_) act s
  dsimp only
  split <;> rfl

theorem State.clearPoison_mg (s : State) (act rs : List Nat) : (s.clearPoison act rs).mg = s.mg := by
  unfold State.clearPoison
  refine foldl_keep (p := State.mg) (fun s t => ?_) act s
  dsimp only
  split <;> rfl

theorem State.stopThread_mg (s : State) (t r n : Nat) : (s.stopThread t r n).mg.unlogged = s.mg.unlogged := rfl

theorem State.gg_of (s t : State) (h : t.gang = s.gang) (k : Nat) : t.gg k = s.gg k := by unfold State.gg; rw [h]
theorem State.co_of (s t : State) (h : t.core = s.core) (k : Nat) : t.co k = s.co k := by unfold State.co; rw [h]

/-- The parts of a state that the end of a slot leaves of it, but for the members' own threads and the core's group. -/
theorem State.stepped_keeps (s : State) (e : Env) (left gone : List Nat) :
    let t := ((s.moved e left gone).stepHalt e.grp.members).2
    (∀ m, m ∉ e.grp.members → t.th m = s.th m) ∧ (∀ k, (t.gg k).unmarked = (s.gg k).unmarked) ∧ t.core = s.core ∧
      t.mg.unlogged = s.mg.unlogged := by
  intro t
  have hm : (s.moved e left gone).gang = (s.clearPoison e.active (e.body.writes e.op)).gang :=
    foldl_keep (p := State.gang) (fun s t => s.modRes_gang _ _) _ _
  have hc : (s.moved e left gone).core = s.core :=
    (foldl_keep (p := State.core) (fun s t => s.modRes_core _ _) _ _).trans (State.clearPoison_core _ _ _)
  have hg : (s.moved e left gone).mg = s.mg :=
    (foldl_keep (p := State.mg) (fun s t => s.modRes_mg _ _) _ _).trans (State.clearPoison_mg _ _ _)
  refine ⟨fun m h => ?_, fun k => ?_, ?_, ?_⟩
  · refine (State.foldl_th_out (f := fun s t => s.stopThread t 1 0) (fun s t m h => ?_) _ _ m
      (fun h' => h (List.mem_of_mem_filter h'))).trans ?_
    · exact s.stopThread_th_ne _ _ _ _ h
    · refine (State.foldl_th_out (fun s t m h => s.modRes_out _ _ _ h) _ _ m h).trans ?_
      unfold State.th; rw [State.clearPoison_thr]
  · have : t.gang = (s.moved e left gone).gang :=
      foldl_keep (p := State.gang) (f := fun (s : State) (t : Nat) => s.stopThread t 1 0) (fun _ _ => rfl) _ _
    rw [State.gg_of _ t (this.trans hm), State.clearPoison_unmarked]
  · exact (foldl_keep (p := State.core) (f := fun (s : State) (t : Nat) => s.stopThread t 1 0) (fun _ _ => rfl) _ _).trans hc
  · exact (foldl_keep (p := fun (s : State) => s.mg.unlogged) (f := fun (s : State) (t : Nat) => s.stopThread t 1 0) (fun _ _ => rfl) _ _).trans (by rw [hg])

/-- The end of a slot leaves all but its members' threads and its core's group, in the sense of `Slotted`. -/
theorem State.endSlot_slotted (s : State) (e : Env) (left gone : List Nat) (h : e.core = s.turn) :
    Slotted s (s.endSlot e left gone) e.grp := by
  obtain ⟨h1, h2, h3, h4⟩ := s.stepped_keeps e left gone
  refine ⟨s.onlySlot_endSlot e left gone, fun m hm => ?_, fun k => ?_, fun c => ?_, ?_⟩ <;> rw [State.endSlot_def]
  · split <;> exact h1 m hm
  · split <;> exact h2 k
  · have hk (f : Core → Core) (hf : ∀ x, (f x).ungrouped = x.ungrouped) :
        ((((s.moved e left gone).stepHalt e.grp.members).2.modCo e.core f).co c).ungrouped = (s.co c).ungrouped ∧
        (c ≠ s.turn → (((s.moved e left gone).stepHalt e.grp.members).2.modCo e.core f).co c = s.co c) := by
      by_cases he : c = e.core
      · subst he
        rw [State.modCo_co, hf, State.co_of s _ h3]
        exact ⟨rfl, fun x => (x h).elim⟩
      · rw [State.modCo_co_ne _ _ _ he, State.co_of s _ h3]
        exact ⟨rfl, fun _ => rfl⟩
    split
    · exact hk _ fun _ => rfl
    · exact hk _ fun _ => rfl
  · split <;> exact h4

/-- Registers, flags, special and trap registers of every thread are as they were. -/
theorem State.endSlot_still (s : State) (e : Env) (left gone : List Nat) (m : Nat) :
    ((s.endSlot e left gone).th m).still = (s.th m).still :=
  s.endSlot_view Thr.still e left gone m (fun _ _ => rfl) fun x h => by unfold Thr.still Thr.stop; simp [h]

/-- A resident member that neither left nor is gone stands after the slot. -/
theorem State.endSlot_pc (s : State) (e : Env) (left gone : List Nat) (m : Nat) (hm : m ∈ e.grp.members) (hr : s.resident m = true)
    (hl : left.contains m = false) (hg : gone.contains m = false) : ((s.endSlot e left gone).th m).pc = e.grp.nextPc := by
  have a (l : List Nat) (s : State) (hr : s.resident m = true) (hm : m ∈ l ∨ (s.th m).pc = e.grp.nextPc) :
      ((l.foldl (fun s tid => s.modRes tid fun t =>
        if gone.contains tid then t else t.endSlot e.grp (left.contains tid)) s).th m).pc = e.grp.nextPc := by
    induction l generalizing s with
    | nil => exact hm.resolve_left List.not_mem_nil
    | cons x l ih =>
      rw [List.foldl_cons]
      refine ih _ ?_ ?_
      · rw [State.resident_of _ _ (s.modRes_blk _ _)]; exact hr
      · by_cases hx : m = x
        · subst hx
          right
          rw [State.modRes_in _ _ _ hr, if_neg (by rw [hg]; exact Bool.false_ne_true)]
          show (if left.contains m then _ else _) = _
          rw [if_neg (by rw [hl]; exact Bool.false_ne_true)]
        · rw [State.modRes_out _ _ _ _ hx]
          rcases hm with hm | hm
          · left; exact (List.mem_cons.mp hm).resolve_left hx
          · exact Or.inr hm
  have b : (((s.moved e left gone).stepHalt e.grp.members).2.th m).pc = e.grp.nextPc := by
    refine (State.stepHalt_view Thr.pc m (fun _ _ => rfl) _ _).trans ?_
    refine a _ _ ?_ (Or.inl hm)
    rw [State.resident_of s _ ((s.onlySlot_clearPoison _ _).blk)]; exact hr
  rw [State.endSlot_def]
  split <;> exact b

/-- With no thread under the debugger's step and none that left, the group goes on with the next slot, or ends after its last. -/
theorem State.endSlot_cur (s : State) (e : Env) (h : e.core = s.turn) (hne : e.grp.members ≠ [])
    (hs : ∀ m ∈ e.grp.members, (s.th m).stepping = false) :
    (s.endSlot e [] []).cur = if e.grp.last then none else some { e.grp with slot := e.grp.slot + 1, replays := 0, waitX := [] } := by
  have hst (m : Nat) : ((s.moved e [] []).th m).stepping = (s.th m).stepping := by
    unfold State.moved
    refine (foldl_keep (p := fun (s : State) => (s.th m).stepping) (fun (s : State) t =>
      s.view_modRes Thr.stepping t m _ fun x => ?_) _ _).trans ?_
    · split <;> rfl
    · exact State.view_gang Thr.stepping _ _ m (State.clearPoison_thr _ _ _)
  have hh : ((s.moved e [] []).stepHalt e.grp.members).1 = [] := by
    show e.grp.members.filter _ = []
    refine List.filter_eq_nil_iff.mpr fun m hm => ?_
    rw [hst, hs m hm]; simp
  have ht : ((s.moved e [] []).stepHalt e.grp.members).2.turn = s.turn := by
    have := (s.onlySlot_endSlot e [] []).same
    have h1 : (s.moved e [] []).turn = s.turn := by
      refine (foldl_keep (p := State.turn) (fun s t => ?_) _ _).trans ?_
      · unfold State.modRes; split <;> rfl
      · unfold State.clearPoison
        refine foldl_keep (p := State.turn) (fun s t => ?_) _ _
        dsimp only; split <;> rfl
    exact (foldl_keep (p := State.turn) (f := fun (s : State) (t : Nat) => s.stopThread t 1 0) (fun _ _ => rfl) _ _).trans h1
  have hf : s.staying e [] [] = e.grp.members := by
    unfold State.staying; rw [hh]; simp
  rw [State.endSlot_def, hf]
  have hn : e.grp.members.isEmpty = false := by
    cases hc : e.grp.members with
    | nil => exact (hne hc).elim
    | cons _ _ => rfl
  rw [hn, Bool.or_false]
  split
  · unfold State.cur State.endGroup
    show (State.co (State.modCo _ _ _) (((s.moved e [] []).stepHalt e.grp.members).2.turn)).grp = none
    rw [ht, h, State.modCo_co]
  · unfold State.cur
    show (State.co (State.modCo _ _ _) (((s.moved e [] []).stepHalt e.grp.members).2.turn)).grp = _
    rw [ht, h, State.modCo_co]

/-! ### A word that only computes -/

theorem Thr.reg_setReg (t : Thr) (n k : Nat) (x : Word) : (t.setReg n x).reg k = if k = n then x else t.reg k := by
  unfold Thr.reg Thr.setReg
  by_cases h : k = n
  · subst h; rw [if_pos rfl]; exact getD_setAt_same _ _ _ _
  · rw [if_neg h]; exact getD_setAt_ne _ _ _ h

/-- Registers from one on hold the words written. -/
theorem Thr.reg_setRegs (t : Thr) (n k : Nat) (ws : List Word) :
    (t.setRegs n ws).reg k = if n ≤ k ∧ k < n + ws.length then ws.getD (k - n) 0 else t.reg k := by
  induction ws generalizing n t with
  | nil => rw [if_neg (by simp only [List.length_nil]; omega)]; rfl
  | cons w ws ih =>
    show ((t.setReg n w).setRegs (n + 1) ws).reg k = _
    rw [ih, Thr.reg_setReg]
    by_cases h1 : n + 1 ≤ k ∧ k < n + 1 + ws.length
    · rw [if_pos h1, if_pos (by simp; omega)]
      obtain ⟨j, rfl⟩ : ∃ j, k = n + 1 + j := ⟨k - (n + 1), by omega⟩
      rw [show n + 1 + j - (n + 1) = j by omega, show n + 1 + j - n = j + 1 by omega]; simp
    · rw [if_neg h1]
      by_cases h2 : k = n
      · subst h2; simp
      · rw [if_neg h2, if_neg]; simp; omega

/-- A write of registers changes the registers only. -/
theorem Thr.setRegs_rest (t : Thr) (n : Nat) (ws : List Word) : ∃ rs, t.setRegs n ws = { t with regs := rs } := by
  induction ws generalizing n t with
  | nil => exact ⟨t.regs, rfl⟩
  | cons w ws ih =>
    obtain ⟨rs, h⟩ := ih (t.setReg n w) (n + 1)
    exact ⟨rs, h⟩

theorem Thr.write_bare (t : Thr) (d : Opnd) (ws : List Word) : (t.write d ws).bare = t.bare := by
  cases d with
  | reg r =>
    obtain ⟨rs, h⟩ := t.setRegs_rest r.val ws
    show (t.setRegs r.val ws).bare = t.bare
    rw [h]; rfl
  | _ => rfl

/-- A register after a write. -/
theorem Thr.reg_write (t : Thr) (d : Opnd) (ws : List Word) (k : Nat) :
    (t.write d ws).reg k = match d with
      | .reg r => if r.val ≤ k ∧ k < r.val + ws.length then ws.getD (k - r.val) 0 else t.reg k
      | _ => t.reg k := by
  cases d with
  | reg r => exact t.reg_setRegs _ _ _
  | _ => rfl

theorem Thr.kreg_write (t : Thr) (d : Opnd) (ws : List Word) (k : Nat) :
    (t.write d ws).kregs.getD k 0 = if namesKreg d k then ws.headD 0 else t.kregs.getD k 0 := by
  cases d with
  | reg r =>
    obtain ⟨rs, h⟩ := t.setRegs_rest r.val ws
    show (t.setRegs r.val ws).kregs.getD k 0 = t.kregs.getD k 0
    rw [h]
  | kreg q =>
    show (setAt 0 t.kregs q.val (ws.headD 0)).getD k 0 = if (q.val == k) = true then _ else _
    by_cases h : k = q.val
    · subst h; rw [getD_setAt_same]; simp
    · rw [getD_setAt_ne _ _ _ h, if_neg]; simpa using fun e => h e.symm
  | _ => rfl

/-- `D` holds the words that were written. -/
theorem Thr.gets_write (t : Thr) (d : Opnd) (ws : List Word) : (t.write d ws).gets d ws := by
  cases d with
  | reg r =>
    intro k hk
    rw [Thr.reg_write]
    dsimp only
    rw [if_pos (by omega), show r.val + k - r.val = k by omega]
  | kreg q =>
    show (Thr.write t (.kreg q) ws).kregs.getD q.val 0 = _
    rw [Thr.kreg_write, if_pos]; simp [namesKreg]
  | _ => trivial

/-- Every other register keeps its value. -/
theorem Thr.keeps_write (t : Thr) (d : Opnd) (ws : List Word) : (t.write d ws).keepsBut t d ws.length := by
  refine ⟨fun r h => ?_, fun k h => ?_⟩
  · rw [Thr.reg_write]
    cases d with
    | reg q =>
      dsimp only
      rw [if_neg]
      simpa [covers] using h
    | _ => rfl
  · rw [Thr.kreg_write, if_neg (by rw [h]; exact Bool.false_ne_true)]

theorem Thr.hold_regs (old t : Thr) (h : Hold) (a b c : Opnd) (r : Word) :
    (Thr.hold old t h a b c r).regs = t.regs ∧ (Thr.hold old t h a b c r).kregs = t.kregs := by
  cases h <;> exact ⟨rfl, rfl⟩

theorem Thr.hold_bare (old t : Thr) (h : Hold) (a b c : Opnd) (r : Word) : (Thr.hold old t h a b c r).bare = t.bare := by
  cases h <;> rfl

/-- What a step that only computes makes of a thread. -/
def pureThr (d a b c : Opnd) (h : Hold) (ws : List Word) (old x : Thr) : Thr := Thr.hold old (x.write d ws) h a b c (ws.headD 0)

theorem Thr.reg_congr {t u : Thr} (h : t.regs = u.regs) (k : Nat) : t.reg k = u.reg k := by unfold Thr.reg; rw [h]

theorem pureThr_bare (d a b c : Opnd) (h : Hold) (ws : List Word) (old x : Thr) : (pureThr d a b c h ws old x).bare = x.bare :=
  (Thr.hold_bare _ _ _ _ _ _ _).trans (Thr.write_bare _ _ _)

/-- The steps of the members of a slot that only computes are done one after the other, without a trap. -/
theorem runLanes_pure (pc : DWord) (d a b c : Opnd) (h : Hold) (res : Env → Nat → Thr → List Word) (e : Env) (l : List Nat) (acc : Acc) :
    runLanes pc (pureStep d a b c h res e) l acc =
      { acc with s := l.foldl (fun s m => s.setTh m (pureThr d a b c h (res e m (e.s0.th m)) (e.s0.th m) (s.th m))) acc.s } := by
  induction l generalizing acc with
  | nil => rfl
  | cons x l ih => exact ih _

/-- The threads after the steps of a slot that only computes: the words of `D` in an active one, all else as before. -/
theorem pureFold (d a b c : Opnd) (h : Hold) (res : Nat → List Word) (old : Nat → Thr) (l : List Nat) (s : State) :
    let t := l.foldl (fun (s : State) m => s.setTh m (pureThr d a b c h (res m) (old m) (s.th m))) s
    (t = { s with thr := t.thr }) ∧ (∀ m, (t.th m).bare = (s.th m).bare) ∧ (∀ m, m ∉ l → t.th m = s.th m) ∧
    (∀ m, m ∈ l → (∀ k, (t.th m).reg k = ((s.th m).write d (res m)).reg k) ∧
      ∀ k, (t.th m).kregs.getD k 0 = ((s.th m).write d (res m)).kregs.getD k 0) := by
  induction l generalizing s with
  | nil => exact ⟨rfl, fun _ => rfl, fun _ _ => rfl, fun _ h => (List.not_mem_nil h).elim⟩
  | cons x l ih =>
    obtain ⟨h1, h2, h3, h4⟩ := ih (s.setTh x (pureThr d a b c h (res x) (old x) (s.th x)))
    have hr (k : Nat) : (pureThr d a b c h (res x) (old x) (s.th x)).reg k = ((s.th x).write d (res x)).reg k :=
      Thr.reg_congr (Thr.hold_regs _ _ _ _ _ _ _).1 k
    have hk : (pureThr d a b c h (res x) (old x) (s.th x)).kregs = ((s.th x).write d (res x)).kregs := (Thr.hold_regs _ _ _ _ _ _ _).2
    refine ⟨h1, fun m => ?_, fun m hm => ?_, fun m hm => ?_⟩
    · refine (h2 m).trans ?_
      by_cases e : m = x
      · subst e; rw [State.setTh_th]; exact pureThr_bare _ _ _ _ _ _ _ _
      · rw [State.setTh_th_ne _ _ _ e]
    · rw [List.foldl_cons, h3 m fun h => hm (List.mem_cons_of_mem _ h), State.setTh_th_ne]
      exact fun e => hm (e ▸ List.mem_cons_self)
    · by_cases e : m ∈ l
      · obtain ⟨p, q⟩ := h4 m e
        by_cases ex : m = x
        · subst ex
          refine ⟨fun k => (p k).trans ?_, fun k => (q k).trans ?_⟩
          · rw [State.setTh_th, Thr.reg_write, Thr.reg_write, hr, Thr.reg_write]
            cases d with
            | reg r => dsimp only; split <;> rfl
            | _ => rfl
          · rw [State.setTh_th, Thr.kreg_write, hk, Thr.kreg_write]
            split <;> rfl
        · rw [State.setTh_th_ne _ _ _ ex] at p q
          exact ⟨p, q⟩
      · have ex : m = x := (List.mem_cons.mp hm).resolve_right e
        subst ex
        rw [List.foldl_cons, h3 m e, State.setTh_th, hk]
        exact ⟨hr, fun _ => rfl⟩

theorem Slotted.trans {s t u : State} {g : Group} (h : Slotted s t g) (k : Slotted t u g) (ht : t.turn = s.turn) : Slotted s u g where
  only := h.only.trans k.only
  others m hm := (k.others m hm).trans (h.others m hm)
  gangs n := (k.gangs n).trans (h.gangs n)
  cores c := ⟨((k.cores c).1).trans (h.cores c).1, fun hc => ((k.cores c).2 (ht ▸ hc)).trans ((h.cores c).2 hc)⟩
  mg := k.mg.trans h.mg

theorem State.markLatent_unmarked (s : State) (core : Nat) (ms act rs : List Nat) (k : Nat) :
    ((s.markLatent core ms act rs).gg k).unmarked = (s.gg k).unmarked := by
  unfold State.markLatent
  refine foldl_keep (p := fun (s : State) => (s.gg k).unmarked) (fun s t => ?_) ms s
  refine foldl_keep (p := fun (s : State) => (s.gg k).unmarked) (fun s r => ?_) rs s
  dsimp only
  split
  · show ((State.setGg _ _ _).gg k).unmarked = _
    by_cases h : k = tidGk t
    · subst h; rw [State.setGg_gg]; rfl
    · rw [State.setGg_gg_ne _ _ _ h]
  · split <;> rfl

theorem State.markLatent_mg (s : State) (core : Nat) (ms act rs : List Nat) :
    (s.markLatent core ms act rs).mg.unlogged = s.mg.unlogged := by
  unfold State.markLatent
  refine foldl_keep (p := fun (s : State) => s.mg.unlogged) (fun s t => ?_) ms s
  refine foldl_keep (p := fun (s : State) => s.mg.unlogged) (fun s r => ?_) rs s
  dsimp only
  split
  · rfl
  · split <;> rfl

/-- Errors that a slot finds (R118) leave all that `Slotted` names. -/
theorem State.markLatent_slotted (s : State) (core : Nat) (g : Group) (act rs : List Nat) :
    Slotted s (s.markLatent core g.members act rs) g where
  only := s.onlySlot_markLatent _ _ _ _
  others m _ := by unfold State.th; rw [State.markLatent_thr]
  gangs k := s.markLatent_unmarked _ _ _ _ k
  cores c := by rw [State.co_of s _ (s.markLatent_core _ _ _ _)]; exact ⟨rfl, fun _ => rfl⟩
  mg := s.markLatent_mg _ _ _ _

theorem State.th_of (s t : State) (h : t.thr = s.thr) (m : Nat) : t.th m = s.th m := by unfold State.th; rw [h]

theorem Thr.reg_of_still {t u : Thr} (h : t.still = u.still) : t.regs = u.regs ∧ t.kregs = u.kregs :=
  ⟨(congrArg Thr.regs h : t.still.regs = u.still.regs), (congrArg Thr.kregs h : t.still.kregs = u.still.kregs)⟩

theorem Thr.bare_of_still {t u : Thr} (h : t.still = u.still) : t.bare = u.bare := by unfold Thr.bare; rw [h]

/-- Everything that a word that only computes does: it completes; the active members' destinations hold the words of the result, and
everything else stays, but for the advance of the slot (R85, R106, R118). -/
theorem runWord_pure {i : Instr} {s : State} {g : Group} {op : Nat} {bd : Body} (hi : Issues i s g op bd) (d a b c : Opnd) (h : Hold)
    (res : Env → Nat → Thr → List Word) :
    ∃ t e, runWord i (pureStep d a b c h res) s = .next t ∧
      (e.active = Acting s g bd ∧ e.grp = g ∧ (∀ m, e.s0.th m = s.th m) ∧ (∀ k, (e.s0.gg k).unmarked = (s.gg k).unmarked) ∧
        SlotOnly s e.s0) ∧
      Slotted s t g ∧ Advances s t g ∧ (∀ m, (t.th m).bare = (s.th m).bare) ∧
      (∀ m, m ∉ Acting s g bd → (t.th m).keepsRegs (s.th m)) ∧
      ∀ m ∈ Acting s g bd, (t.th m).gets d (res e m (s.th m)) ∧ (t.th m).keepsBut (s.th m) d (res e m (s.th m)).length := by
  obtain ⟨⟨h1, h2, -⟩, h3, h4⟩ := hi
  let s1 := s.markLatent s.turn g.members (Acting s g bd) (s.env g op bd).readRegs
  let e : Env := { core := s.turn, grp := g, op := op, body := bd, active := Acting s g bd, s0 := s1 }
  have hth (m : Nat) : s1.th m = s.th m := s.th_of s1 (s.markLatent_thr _ _ _ _) m
  obtain ⟨p1, p2, p3, p4⟩ := pureFold d a b c h (fun m => res e m (e.s0.th m)) (fun m => e.s0.th m) (Acting s g bd) s1
  generalize hf : (Acting s g bd).foldl (fun (s : State) m => s.setTh m (pureThr d a b c h (res e m (e.s0.th m)) (e.s0.th m) (s.th m))) s1
    = u at p1 p2 p3 p4
  have hrun : runWord i (pureStep d a b c h res) s = .next (u.endSlot e [] []) := by
    unfold runWord
    rw [h1, h2]
    unfold State.runSlot
    dsimp only
    rw [h3]
    dsimp only
    rw [if_neg (by rw [h4]; exact Bool.false_ne_true)]
    show Host.Outcome.next (State.afterLanes e (runLanes g.pc (pureStep d a b c h res e) (Acting s g bd) { s := s1 })) = _
    rw [runLanes_pure]
    unfold State.afterLanes
    rw [← hf]
    rfl
  have ht1 : s1.turn = s.turn := (s.onlySlot_markLatent s.turn g.members (Acting s g bd) (s.env g op bd).readRegs).turn
  have hu : u.turn = s.turn := by rw [p1]; exact ht1
  have sl1 : Slotted s s1 g := s.markLatent_slotted _ _ _ _
  have sl2 : Slotted s1 u g :=
    { only := ⟨by rw [p1]⟩
      others := fun m hm => p3 m fun hx => hm (List.mem_of_mem_filter hx)
      gangs := fun k => by rw [p1]; rfl
      cores := fun k => by rw [p1]; exact ⟨rfl, fun _ => rfl⟩
      mg := by rw [p1] }
  have sl3 : Slotted u (u.endSlot e [] []) g := u.endSlot_slotted e [] [] hu.symm
  have hst (m : Nat) := u.endSlot_still e [] [] m
  have hb (m : Nat) : (u.th m).bare = (s.th m).bare := (p2 m).trans (by rw [hth])
  have su : Slotted s u g := sl1.trans sl2 ht1
  refine ⟨_, e, hrun, ⟨rfl, rfl, hth, s.markLatent_unmarked _ _ _ _, s.onlySlot_markLatent _ _ _ _⟩, su.trans sl3 hu, ⟨fun m hm hr => ?_, fun hne hs => ?_⟩,
    fun m => (Thr.bare_of_still (hst m)).trans (hb m), fun m hm => ?_, fun m hm => ?_⟩
  · exact u.endSlot_pc e [] [] m hm ((su.only.resident m).trans hr) rfl rfl
  · refine u.endSlot_cur e hu.symm hne fun m hm => ?_
    by_cases ha : m ∈ Acting s g bd
    · have key : ∀ (l : List Nat) (t : State), ((l.foldl (fun (s : State) m => s.setTh m
          (pureThr d a b c h (res e m (e.s0.th m)) (e.s0.th m) (s.th m))) t).th m).stepping = (t.th m).stepping := by
        intro l t
        refine foldl_keep (p := fun (s : State) => (s.th m).stepping) (fun t x => ?_) l t
        by_cases hx : m = x
        · subst hx
          rw [State.setTh_th]
          unfold pureThr
          have w : ((t.th m).write d (res e m (e.s0.th m))).stepping = (t.th m).stepping := by
            cases d with
            | reg r => obtain ⟨rs, hrs⟩ := (t.th m).setRegs_rest r.val (res e m (e.s0.th m)); show ((t.th m).setRegs _ _).stepping = _; rw [hrs]
            | _ => rfl
          rw [← w]
          cases h <;> rfl
        · rw [State.setTh_th_ne _ _ _ hx]
      rw [← hf, key, hth]; exact hs m hm
    · rw [p3 m ha, hth]; exact hs m hm
  · obtain ⟨q1, q2⟩ := Thr.reg_of_still (hst m)
    rw [p3 m hm, hth] at q1 q2
    exact ⟨q1, q2⟩
  · obtain ⟨q1, q2⟩ := Thr.reg_of_still (hst m)
    obtain ⟨r1, r2⟩ := p4 m hm
    rw [hth] at r1 r2
    have w1 : ∀ k, ((u.endSlot e [] []).th m).reg k = ((s.th m).write d (res e m (s.th m))).reg k := fun k => by
      rw [Thr.reg_congr q1, r1]
    have w2 : ∀ k, ((u.endSlot e [] []).th m).kregs.getD k 0 = ((s.th m).write d (res e m (s.th m))).kregs.getD k 0 := fun k => by
      rw [q2, r2]
    have hg := (s.th m).gets_write d (res e m (s.th m))
    have hk := (s.th m).keeps_write d (res e m (s.th m))
    refine ⟨?_, fun r hr => (w1 r).trans (hk.1 r hr), fun k hk' => (w2 k).trans (hk.2 k hk')⟩
    cases d with
    | reg r => intro k hk'; rw [w1]; exact hg k hk'
    | kreg q => exact (w2 q.val).trans hg
    | _ => trivial

/-! ### A group of one thread -/

/-- A group of one acting thread finds no error outside its own word, and corrects none that it has not (R118). -/
theorem State.markLatent_solo (s : State) (core tid : Nat) (rs : List Nat) (h : (s.gg (tidGk tid)).soft = []) :
    s.markLatent core [tid] [tid] rs = s := by
  refine foldl_fix fun t ht => foldl_fix fun r _ => ?_
  rw [List.mem_singleton.mp ht]
  simp [h]

theorem State.clearPoison_solo (s : State) (tid : Nat) (rs : List Nat) : s.clearPoison [tid] rs = s := by
  unfold State.clearPoison
  simp

theorem Solo.acting {i : Instr} {s : State} {g : Group} {op : Nat} {b : Body} {tid : Nat} (h : Solo i s g op b tid) :
    Acting s g b = [tid] := by
  unfold Acting
  rw [h.2.1, List.filter_cons, if_pos h.2.2.1, List.filter_nil]

/-- The slot of a core word for a group of one acting thread comes to what its step came to. -/
theorem runWord_solo {i : Instr} {s : State} {g : Group} {op : Nat} {b : Body} {tid : Nat} (h : Solo i s g op b tid)
    (act : Env → Nat → State → Lane) (fin : Env → Acc → Acc) (cnt : Env → State → State) :
    runWord i act s fin cnt = .next (State.afterLanes (s.env g op b)
      (fin (s.env g op b) (runLanes g.pc (act (s.env g op b)) [tid] { s })) cnt) := by
  have ha := h.acting
  obtain ⟨⟨⟨h1, h2, -⟩, h3, h4⟩, hm, -, -, hs, -⟩ := h
  unfold runWord
  rw [h1, h2]
  unfold State.runSlot
  dsimp only
  rw [h3]
  dsimp only
  rw [if_neg (by rw [h4]; exact Bool.false_ne_true)]
  have he : s.markLatent (s.env g op b).core g.members (s.env g op b).active (s.env g op b).readRegs = s := by
    have : (s.env g op b).active = [tid] := ha
    rw [this, hm, State.markLatent_solo _ _ _ _ hs]
  rw [he]
  have hact : (s.env g op b).active = [tid] := ha
  show Host.Outcome.next (State.afterLanes (s.env g op b) (fin (s.env g op b)
    (runLanes g.pc (act (s.env g op b)) (s.env g op b).active { s := s })) cnt) = _
  rw [hact]

end Sys2Proof.Machine
end

