-- ==== Sys2Proof/Laws/Access.lean ====
section
/-!
SUPPORT. What the checks of an access can change (R228, R253): the translations held and the free values spent, nothing else.
-/
namespace Sys2Proof.Machine

/-- A translation or the checks of an access change only the TLBs and the free-value counter. -/
structure Looked (s t : State) : Prop where
  same : t = { s with tlb := t.tlb, fresh := t.fresh }

theorem Looked.refl (s : State) : Looked s s := ⟨rfl⟩

theorem Looked.trans {s t u : State} (h : Looked s t) (k : Looked t u) : Looked s u := by
  constructor; rw [k.same, h.same]

/-- Where no tag has changed, a fill finds no mismatch (R416). -/
theorem State.fill_clean (s : State) (l : Nat) (h : s.tags = []) : s.fill l = s := by
  unfold State.fill State.tagBad
  rw [h]
  exact if_neg (by simp [Tbl.get])

theorem State.fillAt_clean (s : State) (p : Place) (h : s.tags = []) : s.fillAt p = s := by
  cases p <;> first | exact s.fill_clean _ h | rfl

theorem State.fills_clean (s : State) (l n : Nat) (h : s.tags = []) : s.fills l n = s :=
  foldl_fix fun _ _ => s.fill_clean _ h

theorem Looked.tags {s t : State} (h : Looked s t) : t.tags = s.tags := by rw [h.same]

theorem State.tlbPut_looked (s : State) (e : TlbE) : Looked s (s.tlbPut e) := by
  unfold State.tlbPut; dsimp only; split <;> exact ⟨rfl⟩

theorem State.tlbWalk_looked (s : State) (asid root : Nat) (l1 : Option Nat) (die va : Nat) :
    Looked s (s.tlbWalk asid root l1 die va).2 := by
  unfold State.tlbWalk
  split
  · exact Looked.refl s
  · dsimp only
    split
    · cases l1
      · exact Looked.refl s
      · exact s.tlbPut_looked _
    · split
      · exact Looked.refl s
      · cases l1
        · exact s.tlbPut_looked _
        · exact (s.tlbPut_looked _).trans (State.tlbPut_looked _ _)

theorem State.xlat_looked (s : State) (cid : Nat) (l1 : Option Nat) (die va : Nat) : Looked s (s.xlat cid l1 die va).2 := by
  unfold State.xlat
  dsimp only
  split
  · exact Looked.refl s
  · have := s.tlbWalk_looked (s.cx cid).asid (s.cx cid).root l1 die va
    split <;> (rename_i h; rw [h] at this; exact this)

theorem State.reach_looked (s : State) (tid agent : Nat) (rd wr : Bool) (va : Nat) (pc : DWord) :
    Looked s (s.reach tid agent rd wr va pc).2 := by
  unfold State.reach
  dsimp only
  have := s.xlat_looked (s.cidOf tid) (some (s.coreOf tid)) (coreDie (s.coreOf tid)) va
  split
  · rename_i h; rw [h] at this; exact this
  · rename_i h; rw [h] at this
    split <;> exact this

theorem State.pageAcs_looked (s : State) (tid kind : Nat) (rd wr : Bool) (ea : Nat) (pc : DWord) (h : s.tags = []) :
    Looked s (s.pageAcs tid kind rd wr ea pc).2 := by
  unfold State.pageAcs
  dsimp only
  split
  · exact Looked.refl s
  · have := s.reach_looked tid 0 rd wr ea pc
    split
    · rename_i e; rw [e] at this; exact this
    · rename_i e; rw [e] at this; exact this
    · rename_i t e
      rw [e] at this
      have ht : t.tags = [] := this.tags.trans h
      repeat' split
      all_goals first | exact this | (rw [State.fillAt_clean _ _ ht]; exact this)

/-- The checks of R228 change no thread, no memory and no page, where they find no changed tag. -/
theorem State.acs_looked (s : State) (tid sp kind w : Nat) (rd wr : Bool) (ea : Nat) (pc : DWord) (h : s.tags = []) :
    Looked s (s.acs tid sp kind w rd wr ea pc).2 := by
  unfold State.acs
  split
  · exact Looked.refl s
  · split
    · split <;> exact Looked.refl s
    · exact s.pageAcs_looked tid kind rd wr ea pc h

end Sys2Proof.Machine
end

