-- ==== Sys2Proof/Laws/Memory.lean ====
section
/-!
SUPPORT. Laws of the memory operations: what each leaves in memory, and that each keeps the canonical form.  Every change that a step makes to
memory is one of these: `State.wr` (and through it `wrN`, `hwWrite`, `qput`, `storeParams` and all that write), `State.copyRange`, and
`State.zeroRanges`; a device that loses its power takes the memory of `State.reset`.
-/
namespace Sys2Proof.Machine

/-! ### Reset -/

/-- The memory of reset is canonical. -/
theorem State.reset_mem_wf : Memory.wf State.reset.mem = true := rfl

/-- The memory of reset reads the blank byte everywhere. -/
@[simp] theorem State.reset_byte (a : Nat) : State.reset.byte a = Memory.blank := rfl

/-! ### Writes -/

/-- A write changes memory only where it is performed; one that meets the held-state table changes nothing there (R255). -/
theorem State.wr_mem (s : State) (loc : Nat) (bs : List Byte) (st : Nat) :
    (s.wr loc bs st).mem = if s.inHst loc bs.length && decide (0 < bs.length) then s.mem else Memory.put s.mem loc bs := by
  unfold State.wr State.ras
  split <;> rfl

/-- A write keeps the canonical form. -/
theorem State.wr_wf (s : State) (loc : Nat) (bs : List Byte) (st : Nat) (h : Memory.wf s.mem = true) : Memory.wf (s.wr loc bs st).mem = true := by
  rw [State.wr_mem]
  split
  · exact h
  · exact Memory.put_wf _ _ _ h

/-- A write of a number keeps the canonical form. -/
theorem State.wrN_wf (s : State) (loc n x st : Nat) (h : Memory.wf s.mem = true) : Memory.wf (s.wrN loc n x st).mem = true := s.wr_wf loc _ st h

/-- What a byte reads as after a write that is not in the held-state table. -/
theorem State.wr_byte (s : State) (loc : Nat) (bs : List Byte) (st a : Nat) (h : s.inHst loc bs.length = false) :
    (s.wr loc bs st).byte a = if loc ≤ a ∧ a < loc + bs.length then bs.getD (a - loc) Memory.blank else s.byte a := by
  unfold State.byte
  rw [State.wr_mem, h]
  exact Memory.get_put s.mem loc bs a

/-- A write leaves every byte outside its range. -/
theorem State.wr_byte_other (s : State) (loc : Nat) (bs : List Byte) (st a : Nat) (h : ¬(loc ≤ a ∧ a < loc + bs.length)) :
    (s.wr loc bs st).byte a = s.byte a := by
  unfold State.byte
  rw [State.wr_mem]
  split
  · rfl
  · rw [Memory.get_put, if_neg h]

/-- Reading a run of bytes byte by byte. -/
theorem State.bytes_eq (s : State) (loc n : Nat) : s.bytes loc n = (List.range n).map fun k => s.byte (loc + k) := by
  induction n generalizing loc with
  | zero => rfl
  | succ n ih =>
    rw [State.bytes, ih, List.range_succ_eq_map, List.map_cons, List.map_map]
    simp [Function.comp_def, Nat.add_comm, Nat.add_left_comm]

/-- A read after a write of the same bytes. -/
theorem State.wr_bytes (s : State) (loc : Nat) (bs : List Byte) (st : Nat) (h : s.inHst loc bs.length = false) :
    (s.wr loc bs st).bytes loc bs.length = bs := by
  rw [State.bytes_eq]
  apply List.ext_getElem
  · simp
  · intro k h1 h2
    rw [List.getElem_map, List.getElem_range, State.wr_byte s loc bs st _ h, if_pos (by omega)]
    simp [List.getD_eq_getElem?_getD, h2]

/-- A number is read as it was written, in its width. -/
theorem State.wrN_rd (s : State) (loc n x st : Nat) (h : s.inHst loc n = false) : (s.wrN loc n x st).rd loc n = x % 256 ^ n := by
  have := s.wr_bytes loc (natLe n x) st (by simpa using h)
  rw [natLe_length] at this
  rw [State.rd, State.wrN, this, leNat_natLe]

/-! ### Copies and cleared ranges -/

/-- A fold of writes keeps the canonical form. -/
theorem Memory.foldl_set_wf {α : Type} (l : List α) (key : α → Nat) (val : α → Byte) (m : Memory) (h : Memory.wf m = true) :
    Memory.wf (l.foldl (fun m c => Tbl.set Memory.blank m (key c) (val c)) m) = true := by
  induction l generalizing m with
  | nil => exact h
  | cons c l ih => exact ih _ (Tbl.set_wf Memory.blank _ _ h)

/-- A copy of a range keeps the canonical form (R264). -/
theorem Memory.copyRange_wf (m : Memory) (src dst n : Nat) (h : Memory.wf m = true) : Memory.wf (Memory.copyRange m src dst n) = true :=
  Memory.foldl_set_wf _ _ _ _ (Tbl.filter_wf Memory.blank _ h)

/-- A copy of a range keeps the canonical form of the machine's memory. -/
theorem State.copyRange_wf (s : State) (src dst n : Nat) (h : Memory.wf s.mem = true) : Memory.wf (s.copyRange src dst n).mem = true := by
  unfold State.copyRange
  split
  · exact h
  · exact Memory.copyRange_wf _ _ _ _ h

/-- A range that is cleared keeps the canonical form (R69). -/
theorem State.zeroRanges_wf (s : State) (rs : List (Nat × Nat)) (h : Memory.wf s.mem = true) : Memory.wf (s.zeroRanges rs).mem = true :=
  Tbl.filter_wf Memory.blank _ h

/-- The word that is placed for a first instruction keeps the canonical form (log 3). -/
theorem State.placeWord_wf (s : State) (nbits w : Nat) (h : Memory.wf s.mem = true) : Memory.wf (s.placeWord nbits w).mem = true :=
  Memory.put_wf _ _ _ h

end Sys2Proof.Machine
end

