-- ==== Sys2Proof/Laws/PerInstr.lean ====
section
/-!
SUPPORT. Statements made per instruction: the opcode map of R89, from an instruction to its opcode and fields and back.
-/
namespace Sys2Proof.Laws.Opcode

/-- A core instruction's opcode and fields give the instruction back. -/
def Statement (i : Instr) : Prop := ∀ op b, i.core = some (op, b) → ofBody op b = some i

/-- `REGISTER_WRITE` is no core word. -/
theorem registerWrite (x0 : Who) (x1 : Nat) (x2 : Nat) (x3 : DWord) : Statement (.registerWrite x0 x1 x2 x3) := by
  intro op b h; cases h

/-- `RC_COUNTER_READ` is no core word. -/
theorem rcCounterRead (x0 : Who) (x1 : RegSpan) : Statement (.rcCounterRead x0 x1) := by
  intro op b h; cases h

/-- `DESTROY_DRAIN_COMPLETE` is no core word. -/
theorem destroyDrainComplete (x0 : Nat) : Statement (.destroyDrainComplete x0) := by
  intro op b h; cases h

/-- `CTX_DISPATCH` is no core word. -/
theorem ctxDispatch (x0 : Nat) : Statement (.ctxDispatch x0) := by
  intro op b h; cases h

/-- `SLICE_EXPIRE` is no core word. -/
theorem sliceExpire (x0 : Nat) : Statement (.sliceExpire x0) := by
  intro op b h; cases h

/-- `PTMO_EXPIRE` is no core word. -/
theorem ptmoExpire (x0 : Nat) : Statement (.ptmoExpire x0) := by
  intro op b h; cases h

/-- `PREEMPT_TAKE` is no core word. -/
theorem preemptTake (x0 : Nat) : Statement (.preemptTake x0) := by
  intro op b h; cases h

/-- `SAVE_COMPLETE` is no core word. -/
theorem saveComplete (x0 : Nat) : Statement (.saveComplete x0) := by
  intro op b h; cases h

/-- `CTX_RESTORE` is no core word. -/
theorem ctxRestore (x0 : Nat) : Statement (.ctxRestore x0) := by
  intro op b h; cases h

/-- `QUEUE_ENABLE` is no core word. -/
theorem queueEnable (x0 : Who) (x1 : Nat) : Statement (.queueEnable x0 x1) := by
  intro op b h; cases h

/-- `QUEUE_DISABLE` is no core word. -/
theorem queueDisable (x0 : Who) (x1 : Nat) : Statement (.queueDisable x0 x1) := by
  intro op b h; cases h

/-- `RESET_QUEUE` is no core word. -/
theorem resetQueue (x0 : Who) (x1 : Bool) (x2 : Nat) : Statement (.resetQueue x0 x1 x2) := by
  intro op b h; cases h

/-- `RESET_ENGINE` is no core word. -/
theorem resetEngine (x0 : Who) (x1 : Nat) : Statement (.resetEngine x0 x1) := by
  intro op b h; cases h

/-- `RESET_PARTITION` is no core word. -/
theorem resetPartition (x0 : Who) (x1 : Nat) : Statement (.resetPartition x0 x1) := by
  intro op b h; cases h

/-- `RESET_DIE` is no core word. -/
theorem resetDie (x0 : Who) (x1 : Nat) : Statement (.resetDie x0 x1) := by
  intro op b h; cases h

/-- `RESET_FUNCTION` is no core word. -/
theorem resetFunction (x0 : Who) (x1 : Nat) : Statement (.resetFunction x0 x1) := by
  intro op b h; cases h

/-- `RESET_DEVICE` is no core word. -/
theorem resetDevice (x0 : Who) : Statement (.resetDevice x0) := by
  intro op b h; cases h

/-- `DOORBELL_WRITE` is no core word. -/
theorem doorbellWrite (x0 : Who) (x1 : Nat) (x2 : DWord) : Statement (.doorbellWrite x0 x1 x2) := by
  intro op b h; cases h

/-- `INGRESS_KEY_WRITE` is no core word. -/
theorem ingressKeyWrite (x0 : Who) (x1 : Nat) (x2 : DWord) : Statement (.ingressKeyWrite x0 x1 x2) := by
  intro op b h; cases h

/-- `COMMAND_FRAME` is no core word. -/
theorem commandFrame (x0 : Datagram) : Statement (.commandFrame x0) := by
  intro op b h; cases h

/-- `QUEUE_MAP` is no core word. -/
theorem queueMap (x0 : Nat) (x1 : Nat) (x2 : Nat) : Statement (.queueMap x0 x1 x2) := by
  intro op b h; cases h

/-- `QUEUE_UNMAP` is no core word. -/
theorem queueUnmap (x0 : Nat) (x1 : Bool) : Statement (.queueUnmap x0 x1) := by
  intro op b h; cases h

/-- `NOP_PACKET` is no core word. -/
theorem nopPacket (x0 : Nat) (x1 : Packet) : Statement (.nopPacket x0 x1) := by
  intro op b h; cases h

/-- `LAUNCH` is no core word. -/
theorem launch (x0 : Nat) (x1 : Packet) : Statement (.launch x0 x1) := by
  intro op b h; cases h

/-- `WAIT_PACKET` is no core word. -/
theorem waitPacket (x0 : Nat) (x1 : Packet) : Statement (.waitPacket x0 x1) := by
  intro op b h; cases h

/-- `WATCH_WAKE` is no core word. -/
theorem watchWake (x0 : Nat) : Statement (.watchWake x0) := by
  intro op b h; cases h

/-- `SIGNAL` is no core word. -/
theorem signal (x0 : Nat) (x1 : Packet) : Statement (.signal x0 x1) := by
  intro op b h; cases h

/-- `COPY_PACKET` is no core word. -/
theorem copyPacket (x0 : Nat) (x1 : Packet) : Statement (.copyPacket x0 x1) := by
  intro op b h; cases h

/-- `LOADSCHED` is no core word. -/
theorem loadsched (x0 : Nat) (x1 : Packet) : Statement (.loadsched x0 x1) := by
  intro op b h; cases h

/-- `RUNSCHED` is no core word. -/
theorem runsched (x0 : Nat) (x1 : Packet) : Statement (.runsched x0 x1) := by
  intro op b h; cases h

/-- `DEPEND` is no core word. -/
theorem depend (x0 : Nat) (x1 : Packet) : Statement (.depend x0 x1) := by
  intro op b h; cases h

/-- `STEPMARK` is no core word. -/
theorem stepmark (x0 : Nat) (x1 : Packet) : Statement (.stepmark x0 x1) := by
  intro op b h; cases h

/-- `PUBLISH` is no core word. -/
theorem publish (x0 : Nat) (x1 : Packet) : Statement (.publish x0 x1) := by
  intro op b h; cases h

/-- `COLLECT` is no core word. -/
theorem collect (x0 : Nat) (x1 : Packet) : Statement (.collect x0 x1) := by
  intro op b h; cases h

/-- `BLOCK_PLACE` is no core word. -/
theorem blockPlace (x0 : Nat) : Statement (.blockPlace x0) := by
  intro op b h; cases h

/-- `CLUSTER_WAKE_DONE` is no core word. -/
theorem clusterWakeDone (x0 : Nat) : Statement (.clusterWakeDone x0) := by
  intro op b h; cases h

/-- `CLUSTER_GATE` is no core word. -/
theorem clusterGate (x0 : Nat) : Statement (.clusterGate x0) := by
  intro op b h; cases h

/-- `BLOCK_RETIRE` is no core word. -/
theorem blockRetire (x0 : Nat) : Statement (.blockRetire x0) := by
  intro op b h; cases h

/-- `CLAUSE_ISSUE` is no core word. -/
theorem clauseIssue (x0 : Nat) : Statement (.clauseIssue x0) := by
  intro op b h; cases h

/-- `HANDLER_ENTER` is no core word. -/
theorem handlerEnter (x0 : Nat) : Statement (.handlerEnter x0) := by
  intro op b h; cases h

/-- `HALT_TAKE` is no core word. -/
theorem haltTake (x0 : Nat) : Statement (.haltTake x0) := by
  intro op b h; cases h

/-- `SLEEP_WAKE` is no core word. -/
theorem sleepWake (x0 : Nat) : Statement (.sleepWake x0) := by
  intro op b h; cases h

/-- `MEMORY_RETURN` is no core word. -/
theorem memoryReturn (x0 : Nat) (x1 : Nat) : Statement (.memoryReturn x0 x1) := by
  intro op b h; cases h

/-- `MMA_COMPLETE` is no core word. -/
theorem mmaComplete (x0 : Nat) : Statement (.mmaComplete x0) := by
  intro op b h; cases h

/-- `BTU_ELEMENT` is no core word. -/
theorem btuElement (x0 : Nat) (x1 : Nat) (x2 : Nat) : Statement (.btuElement x0 x1 x2) := by
  intro op b h; cases h

/-- `APERTURE_START` is no core word. -/
theorem apertureStart (x0 : Who) (x1 : Nat) (x2 : Nat) (x3 : DWord) : Statement (.apertureStart x0 x1 x2 x3) := by
  intro op b h; cases h

/-- `APERTURE_CANCEL` is no core word. -/
theorem apertureCancel (x0 : Who) (x1 : Nat) (x2 : Nat) (x3 : DWord) : Statement (.apertureCancel x0 x1 x2 x3) := by
  intro op b h; cases h

/-- `REC_ACCEPT` is no core word. -/
theorem recAccept (x0 : Nat) : Statement (.recAccept x0) := by
  intro op b h; cases h

/-- `COLLECT_TIMER` is no core word. -/
theorem collectTimer (x0 : Nat) (x1 : Nat) : Statement (.collectTimer x0 x1) := by
  intro op b h; cases h

/-- `MIGRATE_SWITCH` is no core word. -/
theorem migrateSwitch (x0 : Nat) (x1 : Nat) : Statement (.migrateSwitch x0 x1) := by
  intro op b h; cases h

/-- `HOMECFG_WRITE` is no core word. -/
theorem homecfgWrite (x0 : Who) (x1 : Nat) (x2 : DWord) : Statement (.homecfgWrite x0 x1 x2) := by
  intro op b h; cases h

/-- `RRCTL_WRITE` is no core word. -/
theorem rrctlWrite (x0 : Who) (x1 : Nat) (x2 : Nat) (x3 : DWord) : Statement (.rrctlWrite x0 x1 x2 x3) := by
  intro op b h; cases h

/-- `PRICE_DATA_WRITE` is no core word. -/
theorem priceDataWrite (x0 : Who) (x1 : DWord) : Statement (.priceDataWrite x0 x1) := by
  intro op b h; cases h

/-- `CLKLOCK_WRITE` is no core word. -/
theorem clklockWrite (x0 : Who) (x1 : Nat) (x2 : DWord) : Statement (.clklockWrite x0 x1 x2) := by
  intro op b h; cases h

/-- `CLOCK_RELOCK_DONE` is no core word. -/
theorem clockRelockDone (x0 : Nat) : Statement (.clockRelockDone x0) := by
  intro op b h; cases h

/-- `GOVERNOR_INTERVAL` is no core word. -/
theorem governorInterval (x0 : Nat) : Statement (.governorInterval x0) := by
  intro op b h; cases h

/-- `BALLAST_HINT_FETCH` is no core word. -/
theorem ballastHintFetch (x0 : Nat) : Statement (.ballastHintFetch x0) := by
  intro op b h; cases h

/-- `BALLAST_SCRUB_LINE` is no core word. -/
theorem ballastScrubLine (x0 : Nat) : Statement (.ballastScrubLine x0) := by
  intro op b h; cases h

/-- `SELF_TEST_STEP` is no core word. -/
theorem selfTestStep (x0 : Nat) (x1 : Bool) : Statement (.selfTestStep x0 x1) := by
  intro op b h; cases h

/-- `DROOP_DETECT` is no core word. -/
theorem droopDetect (x0 : Nat) : Statement (.droopDetect x0) := by
  intro op b h; cases h

/-- `DROOP_RECOVER` is no core word. -/
theorem droopRecover (x0 : Nat) : Statement (.droopRecover x0) := by
  intro op b h; cases h

/-- `SENSOR_SAMPLE` is no core word. -/
theorem sensorSample (x0 : Sensors) : Statement (.sensorSample x0) := by
  intro op b h; cases h

/-- `PORT_ENABLE` is no core word. -/
theorem portEnable (x0 : Who) (x1 : Nat) (x2 : DWord) : Statement (.portEnable x0 x1 x2) := by
  intro op b h; cases h

/-- `LINK_TRAIN_END` is no core word. -/
theorem linkTrainEnd (x0 : Nat) (x1 : Option Ident) : Statement (.linkTrainEnd x0 x1) := by
  intro op b h; cases h

/-- `LOSS_OF_SIGNAL` is no core word. -/
theorem lossOfSignal (x0 : Nat) : Statement (.lossOfSignal x0) := by
  intro op b h; cases h

/-- `FLIT_RECEIVE` is no core word. -/
theorem flitReceive (x0 : Nat) (x1 : Nat) (x2 : Option RxFlit) : Statement (.flitReceive x0 x1 x2) := by
  intro op b h; cases h

/-- `FABRIC_REQUEST_ARRIVE` is no core word. -/
theorem fabricRequestArrive (x0 : Arrival) : Statement (.fabricRequestArrive x0) := by
  intro op b h; cases h

/-- `FABRIC_RESPONSE_ARRIVE` is no core word. -/
theorem fabricResponseArrive (x0 : Arrival) : Statement (.fabricResponseArrive x0) := by
  intro op b h; cases h

/-- `CUSTODY_ACK` is no core word. -/
theorem custodyAck (x0 : Arrival) : Statement (.custodyAck x0) := by
  intro op b h; cases h

/-- `END_TO_END_ACK` is no core word. -/
theorem endToEndAck (x0 : Arrival) : Statement (.endToEndAck x0) := by
  intro op b h; cases h

/-- `NAK_ARRIVE` is no core word. -/
theorem nakArrive (x0 : Arrival) : Statement (.nakArrive x0) := by
  intro op b h; cases h

/-- `CUSTODY_TIMEOUT` is no core word. -/
theorem custodyTimeout (x0 : Nat) : Statement (.custodyTimeout x0) := by
  intro op b h; cases h

/-- `SOURCE_DEADLINE` is no core word. -/
theorem sourceDeadline (x0 : Nat) : Statement (.sourceDeadline x0) := by
  intro op b h; cases h

/-- `PINT_ARRIVE` is no core word. -/
theorem pintArrive (x0 : PintIn) : Statement (.pintArrive x0) := by
  intro op b h; cases h

/-- `EDGEQ_ARRIVE` is no core word. -/
theorem edgeqArrive (x0 : Arrival) : Statement (.edgeqArrive x0) := by
  intro op b h; cases h

/-- `SIGNAL_INCREMENT_ARRIVE` is no core word. -/
theorem signalIncrementArrive (x0 : Arrival) : Statement (.signalIncrementArrive x0) := by
  intro op b h; cases h

/-- `ROCE_RECEIVE` is no core word. -/
theorem roceReceive (x0 : Nat) (x1 : Nat) (x2 : RoceIn) : Statement (.roceReceive x0 x1 x2) := by
  intro op b h; cases h

/-- `TIME_SYNC` is no core word. -/
theorem timeSync (x0 : Nat) : Statement (.timeSync x0) := by
  intro op b h; cases h

/-- `SCHEDULE_START` is no core word. -/
theorem scheduleStart (x0 : Nat) : Statement (.scheduleStart x0) := by
  intro op b h; cases h

/-- `TRUSS_WAKE` is no core word. -/
theorem trussWake (x0 : Nat) : Statement (.trussWake x0) := by
  intro op b h; cases h

/-- `SCHEDULE_DONE` is no core word. -/
theorem scheduleDone (x0 : Nat) : Statement (.scheduleDone x0) := by
  intro op b h; cases h

/-- `SCHEDULE_WATCHDOG` is no core word. -/
theorem scheduleWatchdog (x0 : Nat) : Statement (.scheduleWatchdog x0) := by
  intro op b h; cases h

/-- `STEP_MARK_ARRIVE` is no core word. -/
theorem stepMarkArrive (x0 : Nat) (x1 : DWord) (x2 : Nat) (x3 : Nat) : Statement (.stepMarkArrive x0 x1 x2 x3) := by
  intro op b h; cases h

/-- `CRITICAL_PATH_WALK` is no core word. -/
theorem criticalPathWalk (x0 : Nat) : Statement (.criticalPathWalk x0) := by
  intro op b h; cases h

/-- `POWER_ON` is no core word. -/
theorem powerOn : Statement .powerOn := by
  intro op b h; cases h

/-- `RECOVERY_IMAGE_PUSH` is no core word. -/
theorem recoveryImagePush (x0 : List Byte) : Statement (.recoveryImagePush x0) := by
  intro op b h; cases h

/-- The opcode map of R89 names `IADD` both ways. -/
theorem iadd (f : V3) : Statement (.iadd f) := by
  intro op b h; cases h; rfl

/-- The opcode map of R89 names `ISUB` both ways. -/
theorem isub (f : V3) : Statement (.isub f) := by
  intro op b h; cases h; rfl

/-- The opcode map of R89 names `IADDC` both ways. -/
theorem iaddc (f : V3) : Statement (.iaddc f) := by
  intro op b h; cases h; rfl

/-- The opcode map of R89 names `ISUBB` both ways. -/
theorem isubb (f : V3) : Statement (.isubb f) := by
  intro op b h; cases h; rfl

/-- The opcode map of R89 names `INEG` both ways. -/
theorem ineg (f : V3) : Statement (.ineg f) := by
  intro op b h; cases h; rfl

/-- The opcode map of R89 names `IABS` both ways. -/
theorem iabs (f : V3) : Statement (.iabs f) := by
  intro op b h; cases h; rfl

/-- The opcode map of R89 names `IMUL` both ways. -/
theorem imul (f : V3) : Statement (.imul f) := by
  intro op b h; cases h; rfl

/-- The opcode map of R89 names `IMULH` both ways. -/
theorem imulh (f : V3) : Statement (.imulh f) := by
  intro op b h; cases h; rfl

/-- The opcode map of R89 names `IMAD` both ways. -/
theorem imad (f : V3) : Statement (.imad f) := by
  intro op b h; cases h; rfl

/-- The opcode map of R89 names `IMADW` both ways. -/
theorem imadw (f : V3) : Statement (.imadw f) := by
  intro op b h; cases h; rfl

/-- The opcode map of R89 names `IDIV` both ways. -/
theorem idiv (f : V3) : Statement (.idiv f) := by
  intro op b h; cases h; rfl

/-- The opcode map of R89 names `IREM` both ways. -/
theorem irem (f : V3) : Statement (.irem f) := by
  intro op b h; cases h; rfl

/-- The opcode map of R89 names `IMIN` both ways. -/
theorem imin (f : V3) : Statement (.imin f) := by
  intro op b h; cases h; rfl

/-- The opcode map of R89 names `IMAX` both ways. -/
theorem imax (f : V3) : Statement (.imax f) := by
  intro op b h; cases h; rfl

/-- The opcode map of R89 names `ICMP` both ways. -/
theorem icmp (f : V3) : Statement (.icmp f) := by
  intro op b h; cases h; rfl

/-- The opcode map of R89 names `ISEL` both ways. -/
theorem isel (f : V3) : Statement (.isel f) := by
  intro op b h; cases h; rfl

/-- The opcode map of R89 names `AND` both ways. -/
theorem andL (f : V3) : Statement (.andL f) := by
  intro op b h; cases h; rfl

/-- The opcode map of R89 names `OR` both ways. -/
theorem orL (f : V3) : Statement (.orL f) := by
  intro op b h; cases h; rfl

/-- The opcode map of R89 names `XOR` both ways. -/
theorem xorL (f : V3) : Statement (.xorL f) := by
  intro op b h; cases h; rfl

/-- The opcode map of R89 names `ANDN` both ways. -/
theorem andn (f : V3) : Statement (.andn f) := by
  intro op b h; cases h; rfl

/-- The opcode map of R89 names `ORN` both ways. -/
theorem orn (f : V3) : Statement (.orn f) := by
  intro op b h; cases h; rfl

/-- The opcode map of R89 names `SHL` both ways. -/
theorem shl (f : V3) : Statement (.shl f) := by
  intro op b h; cases h; rfl

/-- The opcode map of R89 names `SHR` both ways. -/
theorem shr (f : V3) : Statement (.shr f) := by
  intro op b h; cases h; rfl

/-- The opcode map of R89 names `SAR` both ways. -/
theorem sar (f : V3) : Statement (.sar f) := by
  intro op b h; cases h; rfl

/-- The opcode map of R89 names `ROTL` both ways. -/
theorem rotl (f : V3) : Statement (.rotl f) := by
  intro op b h; cases h; rfl

/-- The opcode map of R89 names `FUNL` both ways. -/
theorem funl (f : V3) : Statement (.funl f) := by
  intro op b h; cases h; rfl

/-- The opcode map of R89 names `BFX` both ways. -/
theorem bfx (f : V3) : Statement (.bfx f) := by
  intro op b h; cases h; rfl

/-- The opcode map of R89 names `BFI` both ways. -/
theorem bfi (f : V3) : Statement (.bfi f) := by
  intro op b h; cases h; rfl

/-- The opcode map of R89 names `POPC` both ways. -/
theorem popc (f : V3) : Statement (.popc f) := by
  intro op b h; cases h; rfl

/-- The opcode map of R89 names `CLZ` both ways. -/
theorem clz (f : V3) : Statement (.clz f) := by
  intro op b h; cases h; rfl

/-- The opcode map of R89 names `CTZ` both ways. -/
theorem ctz (f : V3) : Statement (.ctz f) := by
  intro op b h; cases h; rfl

/-- The opcode map of R89 names `BREV` both ways. -/
theorem brev (f : V3) : Statement (.brev f) := by
  intro op b h; cases h; rfl

/-- The opcode map of R89 names `PERMB` both ways. -/
theorem permb (f : V3) : Statement (.permb f) := by
  intro op b h; cases h; rfl

/-- The opcode map of R89 names `LEA` both ways. -/
theorem lea (f : V3) : Statement (.lea f) := by
  intro op b h; cases h; rfl

/-- The opcode map of R89 names `MOV` both ways. -/
theorem mov (f : V3) : Statement (.mov f) := by
  intro op b h; cases h; rfl

/-- The opcode map of R89 names `MOVI` both ways. -/
theorem movi (f : L32) : Statement (.movi f) := by
  intro op b h; cases h; rfl

/-- The opcode map of R89 names `MOVH` both ways. -/
theorem movh (f : L32) : Statement (.movh f) := by
  intro op b h; cases h; rfl

/-- The opcode map of R89 names `IADDI` both ways. -/
theorem iaddi (f : I24) : Statement (.iaddi f) := by
  intro op b h; cases h; rfl

/-- The opcode map of R89 names `ICMPI` both ways. -/
theorem icmpi (f : I24) : Statement (.icmpi f) := by
  intro op b h; cases h; rfl

/-- The opcode map of R89 names `ANDI` both ways. -/
theorem andi (f : I24) : Statement (.andi f) := by
  intro op b h; cases h; rfl

/-- The opcode map of R89 names `ORI` both ways. -/
theorem ori (f : I24) : Statement (.ori f) := by
  intro op b h; cases h; rfl

/-- The opcode map of R89 names `XORI` both ways. -/
theorem xori (f : I24) : Statement (.xori f) := by
  intro op b h; cases h; rfl

/-- The opcode map of R89 names `SHLI` both ways. -/
theorem shli (f : I24) : Statement (.shli f) := by
  intro op b h; cases h; rfl

/-- The opcode map of R89 names `SHRI` both ways. -/
theorem shri (f : I24) : Statement (.shri f) := by
  intro op b h; cases h; rfl

/-- The opcode map of R89 names `SARI` both ways. -/
theorem sari (f : I24) : Statement (.sari f) := by
  intro op b h; cases h; rfl

/-- The opcode map of R89 names `FADD` both ways. -/
theorem fadd (f : V3) : Statement (.fadd f) := by
  intro op b h; cases h; rfl

/-- The opcode map of R89 names `FSUB` both ways. -/
theorem fsub (f : V3) : Statement (.fsub f) := by
  intro op b h; cases h; rfl

/-- The opcode map of R89 names `FMUL` both ways. -/
theorem fmul (f : V3) : Statement (.fmul f) := by
  intro op b h; cases h; rfl

/-- The opcode map of R89 names `FFMA` both ways. -/
theorem ffma (f : V3) : Statement (.ffma f) := by
  intro op b h; cases h; rfl

/-- The opcode map of R89 names `FMIN` both ways. -/
theorem fmin (f : V3) : Statement (.fmin f) := by
  intro op b h; cases h; rfl

/-- The opcode map of R89 names `FMAX` both ways. -/
theorem fmax (f : V3) : Statement (.fmax f) := by
  intro op b h; cases h; rfl

/-- The opcode map of R89 names `FMINM` both ways. -/
theorem fminm (f : V3) : Statement (.fminm f) := by
  intro op b h; cases h; rfl

/-- The opcode map of R89 names `FMAXM` both ways. -/
theorem fmaxm (f : V3) : Statement (.fmaxm f) := by
  intro op b h; cases h; rfl

/-- The opcode map of R89 names `FCMP` both ways. -/
theorem fcmp (f : V3) : Statement (.fcmp f) := by
  intro op b h; cases h; rfl

/-- The opcode map of R89 names `FCLASS` both ways. -/
theorem fclass (f : V3) : Statement (.fclass f) := by
  intro op b h; cases h; rfl

/-- The opcode map of R89 names `FRND` both ways. -/
theorem frnd (f : V3) : Statement (.frnd f) := by
  intro op b h; cases h; rfl

/-- The opcode map of R89 names `FSCALE` both ways. -/
theorem fscale (f : V3) : Statement (.fscale f) := by
  intro op b h; cases h; rfl

/-- The opcode map of R89 names `FEXPX` both ways. -/
theorem fexpx (f : V3) : Statement (.fexpx f) := by
  intro op b h; cases h; rfl

/-- The opcode map of R89 names `FDIV` both ways. -/
theorem fdiv (f : V3) : Statement (.fdiv f) := by
  intro op b h; cases h; rfl

/-- The opcode map of R89 names `FSQRT` both ways. -/
theorem fsqrt (f : V3) : Statement (.fsqrt f) := by
  intro op b h; cases h; rfl

/-- The opcode map of R89 names `FRCP` both ways. -/
theorem frcp (f : V3) : Statement (.frcp f) := by
  intro op b h; cases h; rfl

/-- The opcode map of R89 names `FRSQ` both ways. -/
theorem frsq (f : V3) : Statement (.frsq f) := by
  intro op b h; cases h; rfl

/-- The opcode map of R89 names `FEXP2` both ways. -/
theorem fexp2 (f : V3) : Statement (.fexp2 f) := by
  intro op b h; cases h; rfl

/-- The opcode map of R89 names `FLOG2` both ways. -/
theorem flog2 (f : V3) : Statement (.flog2 f) := by
  intro op b h; cases h; rfl

/-- The opcode map of R89 names `FSINP` both ways. -/
theorem fsinp (f : V3) : Statement (.fsinp f) := by
  intro op b h; cases h; rfl

/-- The opcode map of R89 names `FCOSP` both ways. -/
theorem fcosp (f : V3) : Statement (.fcosp f) := by
  intro op b h; cases h; rfl

/-- The opcode map of R89 names `FTANH` both ways. -/
theorem ftanh (f : V3) : Statement (.ftanh f) := by
  intro op b h; cases h; rfl

/-- The opcode map of R89 names `FDOT2` both ways. -/
theorem fdot2 (f : V3) : Statement (.fdot2 f) := by
  intro op b h; cases h; rfl

/-- The opcode map of R89 names `CVT` both ways. -/
theorem cvt (f : Cvt) : Statement (.cvt f) := by
  intro op b h; cases h; rfl

/-- The opcode map of R89 names `CVTP` both ways. -/
theorem cvtp (f : Cvt) : Statement (.cvtp f) := by
  intro op b h; cases h; rfl

/-- The opcode map of R89 names `CVTQ` both ways. -/
theorem cvtq (f : Cvt) : Statement (.cvtq f) := by
  intro op b h; cases h; rfl

/-- The opcode map of R89 names `CBX` both ways. -/
theorem cbx (f : Cbx) : Statement (.cbx f) := by
  intro op b h; cases h; rfl

/-- The opcode map of R89 names `SHFL` both ways. -/
theorem shfl (f : V3) : Statement (.shfl f) := by
  intro op b h; cases h; rfl

/-- The opcode map of R89 names `QSWAP` both ways. -/
theorem qswap (f : V3) : Statement (.qswap f) := by
  intro op b h; cases h; rfl

/-- The opcode map of R89 names `QBC` both ways. -/
theorem qbc (f : V3) : Statement (.qbc f) := by
  intro op b h; cases h; rfl

/-- The opcode map of R89 names `VOTE` both ways. -/
theorem vote (f : V3) : Statement (.vote f) := by
  intro op b h; cases h; rfl

/-- The opcode map of R89 names `MATCH` both ways. -/
theorem matchV (f : V3) : Statement (.matchV f) := by
  intro op b h; cases h; rfl

/-- The opcode map of R89 names `XRED` both ways. -/
theorem xred (f : V3) : Statement (.xred f) := by
  intro op b h; cases h; rfl

/-- The opcode map of R89 names `XSCAN` both ways. -/
theorem xscan (f : V3) : Statement (.xscan f) := by
  intro op b h; cases h; rfl

/-- The opcode map of R89 names `LMASK` both ways. -/
theorem lmask (f : V3) : Statement (.lmask f) := by
  intro op b h; cases h; rfl

/-- The opcode map of R89 names `LD` both ways. -/
theorem ld (f : Mem) : Statement (.ld f) := by
  intro op b h; cases h; rfl

/-- The opcode map of R89 names `ST` both ways. -/
theorem st (f : Mem) : Statement (.st f) := by
  intro op b h; cases h; rfl

/-- The opcode map of R89 names `ATOM` both ways. -/
theorem atom (f : Mem) : Statement (.atom f) := by
  intro op b h; cases h; rfl

/-- The opcode map of R89 names `ARED` both ways. -/
theorem ared (f : Mem) : Statement (.ared f) := by
  intro op b h; cases h; rfl

/-- The opcode map of R89 names `FLD` both ways. -/
theorem fld (f : Mem) : Statement (.fld f) := by
  intro op b h; cases h; rfl

/-- The opcode map of R89 names `FST` both ways. -/
theorem fst (f : Mem) : Statement (.fst f) := by
  intro op b h; cases h; rfl

/-- The opcode map of R89 names `FATOM` both ways. -/
theorem fatom (f : Mem) : Statement (.fatom f) := by
  intro op b h; cases h; rfl

/-- The opcode map of R89 names `MCST` both ways. -/
theorem mcst (f : Mem) : Statement (.mcst f) := by
  intro op b h; cases h; rfl

/-- The opcode map of R89 names `TLD` both ways. -/
theorem tld (f : Mem) : Statement (.tld f) := by
  intro op b h; cases h; rfl

/-- The opcode map of R89 names `TST` both ways. -/
theorem tst (f : Mem) : Statement (.tst f) := by
  intro op b h; cases h; rfl

/-- The opcode map of R89 names `PREF` both ways. -/
theorem pref (f : Mem) : Statement (.pref f) := by
  intro op b h; cases h; rfl

/-- The opcode map of R89 names `CCTL` both ways. -/
theorem cctl (f : Mem) : Statement (.cctl f) := by
  intro op b h; cases h; rfl

/-- The opcode map of R89 names `FENCE` both ways. -/
theorem fence (f : Mem) : Statement (.fence f) := by
  intro op b h; cases h; rfl

/-- The opcode map of R89 names `REC` both ways. -/
theorem recW (f : Mem) : Statement (.recW f) := by
  intro op b h; cases h; rfl

/-- The opcode map of R89 names `BINIT` both ways. -/
theorem binit (f : Xf) : Statement (.binit f) := by
  intro op b h; cases h; rfl

/-- The opcode map of R89 names `BARV` both ways. -/
theorem barv (f : Xf) : Statement (.barv f) := by
  intro op b h; cases h; rfl

/-- The opcode map of R89 names `BARX` both ways. -/
theorem barx (f : Xf) : Statement (.barx f) := by
  intro op b h; cases h; rfl

/-- The opcode map of R89 names `BDROP` both ways. -/
theorem bdrop (f : Xf) : Statement (.bdrop f) := by
  intro op b h; cases h; rfl

/-- The opcode map of R89 names `BWAIT` both ways. -/
theorem bwait (f : Xf) : Statement (.bwait f) := by
  intro op b h; cases h; rfl

/-- The opcode map of R89 names `BTEST` both ways. -/
theorem btest (f : Xf) : Statement (.btest f) := by
  intro op b h; cases h; rfl

/-- The opcode map of R89 names `BXC` both ways. -/
theorem bxc (f : Xf) : Statement (.bxc f) := by
  intro op b h; cases h; rfl

/-- The opcode map of R89 names `BXS` both ways. -/
theorem bxs (f : Xf) : Statement (.bxs f) := by
  intro op b h; cases h; rfl

/-- The opcode map of R89 names `TMPL` both ways. -/
theorem tmpl (f : Xf) : Statement (.tmpl f) := by
  intro op b h; cases h; rfl

/-- The opcode map of R89 names `PUB` both ways. -/
theorem pub (f : Xf) : Statement (.pub f) := by
  intro op b h; cases h; rfl

/-- The opcode map of R89 names `BXCAN` both ways. -/
theorem bxcan (f : Xf) : Statement (.bxcan f) := by
  intro op b h; cases h; rfl

/-- The opcode map of R89 names `MMA` both ways. -/
theorem mma (f : Tl) : Statement (.mma f) := by
  intro op b h; cases h; rfl

/-- The opcode map of R89 names `JSET` both ways. -/
theorem jset (f : Tl) : Statement (.jset f) := by
  intro op b h; cases h; rfl

/-- The opcode map of R89 names `JCLR` both ways. -/
theorem jclr (f : Tl) : Statement (.jclr f) := by
  intro op b h; cases h; rfl

/-- The opcode map of R89 names `CBLD` both ways. -/
theorem cbld (f : Tl) : Statement (.cbld f) := by
  intro op b h; cases h; rfl

/-- The opcode map of R89 names `NOP` both ways. -/
theorem nop (f : Sy) : Statement (.nop f) := by
  intro op b h; cases h; rfl

/-- The opcode map of R89 names `BRA` both ways. -/
theorem bra (f : Br) : Statement (.bra f) := by
  intro op b h; cases h; rfl

/-- The opcode map of R89 names `BRX` both ways. -/
theorem brx (f : V3) : Statement (.brx f) := by
  intro op b h; cases h; rfl

/-- The opcode map of R89 names `CALL` both ways. -/
theorem call (f : Br) : Statement (.call f) := by
  intro op b h; cases h; rfl

/-- The opcode map of R89 names `RET` both ways. -/
theorem ret (f : V3) : Statement (.ret f) := by
  intro op b h; cases h; rfl

/-- The opcode map of R89 names `EXIT` both ways. -/
theorem exit (f : Sy) : Statement (.exit f) := by
  intro op b h; cases h; rfl

/-- The opcode map of R89 names `YIELD` both ways. -/
theorem yield (f : Sy) : Statement (.yield f) := by
  intro op b h; cases h; rfl

/-- The opcode map of R89 names `SLEEP` both ways. -/
theorem sleep (f : I24) : Statement (.sleep f) := by
  intro op b h; cases h; rfl

/-- The opcode map of R89 names `TRAP` both ways. -/
theorem trap (f : Sy) : Statement (.trap f) := by
  intro op b h; cases h; rfl

/-- The opcode map of R89 names `BKPT` both ways. -/
theorem bkpt (f : Sy) : Statement (.bkpt f) := by
  intro op b h; cases h; rfl

/-- The opcode map of R89 names `STEP` both ways. -/
theorem step (f : Sy) : Statement (.step f) := by
  intro op b h; cases h; rfl

/-- The opcode map of R89 names `TRACEW` both ways. -/
theorem tracew (f : V3) : Statement (.tracew f) := by
  intro op b h; cases h; rfl

/-- The opcode map of R89 names `S2V` both ways. -/
theorem s2v (f : Sy) : Statement (.s2v f) := by
  intro op b h; cases h; rfl

/-- The opcode map of R89 names `V2S` both ways. -/
theorem v2s (f : Sy) : Statement (.v2s f) := by
  intro op b h; cases h; rfl

/-- The opcode map of R89 names `RFT` both ways. -/
theorem rft (f : Sy) : Statement (.rft f) := by
  intro op b h; cases h; rfl

/-- The opcode map of R89 names `KSWAP` both ways. -/
theorem kswap (f : V3) : Statement (.kswap f) := by
  intro op b h; cases h; rfl

/-- The opcode map of R89 names `TSR` both ways. -/
theorem tsr (f : Sy) : Statement (.tsr f) := by
  intro op b h; cases h; rfl

/-- The opcode map of R89 names `TSW` both ways. -/
theorem tsw (f : Sy) : Statement (.tsw f) := by
  intro op b h; cases h; rfl

/-- The opcode map of R89 names `HALTG` both ways. -/
theorem haltg (f : Sy) : Statement (.haltg f) := by
  intro op b h; cases h; rfl

/-- The opcode map of R89 names `TLBI` both ways. -/
theorem tlbi (f : V3) : Statement (.tlbi f) := by
  intro op b h; cases h; rfl

/-- The opcode map of R89 names `TOKQ` both ways. -/
theorem tokq (f : Sy) : Statement (.tokq f) := by
  intro op b h; cases h; rfl

/-- The opcode map of R89 names `INTENT` both ways. -/
theorem intent (f : V3) : Statement (.intent f) := by
  intro op b h; cases h; rfl

/-- The opcode map of R89 names `BALLAST` both ways. -/
theorem ballast (f : V3) : Statement (.ballast f) := by
  intro op b h; cases h; rfl

/-- `TRUSS_NOP` is no core word. -/
theorem trussNop (x0 : TB) : Statement (.trussNop x0) := by
  intro op b h; cases h

/-- `TRUSS_MOVI` is no core word. -/
theorem trussMovi (x0 : TB) : Statement (.trussMovi x0) := by
  intro op b h; cases h

/-- `TRUSS_ADDI` is no core word. -/
theorem trussAddi (x0 : TB) : Statement (.trussAddi x0) := by
  intro op b h; cases h

/-- `TRUSS_ADD` is no core word. -/
theorem trussAdd (x0 : TA) : Statement (.trussAdd x0) := by
  intro op b h; cases h

/-- `TRUSS_MULI` is no core word. -/
theorem trussMuli (x0 : TB) : Statement (.trussMuli x0) := by
  intro op b h; cases h

/-- `TRUSS_PEER` is no core word. -/
theorem trussPeer (x0 : TB) : Statement (.trussPeer x0) := by
  intro op b h; cases h

/-- `TRUSS_PARAM` is no core word. -/
theorem trussParam (x0 : TB) : Statement (.trussParam x0) := by
  intro op b h; cases h

/-- `TRUSS_CHUNK` is no core word. -/
theorem trussChunk (x0 : TC) : Statement (.trussChunk x0) := by
  intro op b h; cases h

/-- `TRUSS_BRA` is no core word. -/
theorem trussBra (x0 : TB) : Statement (.trussBra x0) := by
  intro op b h; cases h

/-- `TRUSS_BNZ` is no core word. -/
theorem trussBnz (x0 : TB) : Statement (.trussBnz x0) := by
  intro op b h; cases h

/-- `TRUSS_LOOP` is no core word. -/
theorem trussLoop (x0 : TB) : Statement (.trussLoop x0) := by
  intro op b h; cases h

/-- `TRUSS_WAIT` is no core word. -/
theorem trussWait (x0 : TB) : Statement (.trussWait x0) := by
  intro op b h; cases h

/-- `TRUSS_SIG` is no core word. -/
theorem trussSig (x0 : TB) : Statement (.trussSig x0) := by
  intro op b h; cases h

/-- `TRUSS_BAR` is no core word. -/
theorem trussBar (x0 : TB) : Statement (.trussBar x0) := by
  intro op b h; cases h

/-- `TRUSS_FIN` is no core word. -/
theorem trussFin (x0 : TB) : Statement (.trussFin x0) := by
  intro op b h; cases h

/-- `TRUSS_TRAP` is no core word. -/
theorem trussTrap (x0 : TB) : Statement (.trussTrap x0) := by
  intro op b h; cases h

/-- `TRUSS_SEND` is no core word. -/
theorem trussSend (x0 : TC) : Statement (.trussSend x0) := by
  intro op b h; cases h

/-- `TRUSS_RECV` is no core word. -/
theorem trussRecv (x0 : TC) : Statement (.trussRecv x0) := by
  intro op b h; cases h

/-- `TRUSS_RED` is no core word. -/
theorem trussRed (x0 : TC) : Statement (.trussRed x0) := by
  intro op b h; cases h

/-- `TRUSS_REDSEND` is no core word. -/
theorem trussRedsend (x0 : TC) : Statement (.trussRedsend x0) := by
  intro op b h; cases h

/-- `TRUSS_COPY` is no core word. -/
theorem trussCopy (x0 : TC) : Statement (.trussCopy x0) := by
  intro op b h; cases h

/-- `TRUSS_MCAST` is no core word. -/
theorem trussMcast (x0 : TC) : Statement (.trussMcast x0) := by
  intro op b h; cases h

/-- `MATRIX_UNIT_START` is no core word. -/
theorem matrixUnitStart (x0 : Nat) : Statement (.matrixUnitStart x0) := by
  intro op b h; cases h

/-- `HART_MEMORY_ACCESS` is no core word. -/
theorem hartMemoryAccess (x0 : Nat) (x1 : HartOp) : Statement (.hartMemoryAccess x0 x1) := by
  intro op b h; cases h

/-- `CTX_CREATE` is no core word. -/
theorem ctxCreate : Statement (.ctxCreate) := by
  intro op b h; cases h

/-- `CTX_BIND` is no core word. -/
theorem ctxBind : Statement (.ctxBind) := by
  intro op b h; cases h

/-- `CTX_ENABLE` is no core word. -/
theorem ctxEnable : Statement (.ctxEnable) := by
  intro op b h; cases h

/-- `CTX_PREEMPT` is no core word. -/
theorem ctxPreempt : Statement (.ctxPreempt) := by
  intro op b h; cases h

/-- `CTX_DISABLE` is no core word. -/
theorem ctxDisable : Statement (.ctxDisable) := by
  intro op b h; cases h

/-- `CTX_UNBIND` is no core word. -/
theorem ctxUnbind : Statement (.ctxUnbind) := by
  intro op b h; cases h

/-- `CTX_DESTROY` is no core word. -/
theorem ctxDestroy : Statement (.ctxDestroy) := by
  intro op b h; cases h

/-- `PG_PIN` is no core word. -/
theorem pgPin : Statement (.pgPin) := by
  intro op b h; cases h

/-- `PG_UNPIN` is no core word. -/
theorem pgUnpin : Statement (.pgUnpin) := by
  intro op b h; cases h

/-- `PG_SHADOW` is no core word. -/
theorem pgShadow : Statement (.pgShadow) := by
  intro op b h; cases h

/-- `PG_UNSHADOW` is no core word. -/
theorem pgUnshadow : Statement (.pgUnshadow) := by
  intro op b h; cases h

/-- `PG_MIGRATE` is no core word. -/
theorem pgMigrate : Statement (.pgMigrate) := by
  intro op b h; cases h

/-- `PG_UNMAP` is no core word. -/
theorem pgUnmap : Statement (.pgUnmap) := by
  intro op b h; cases h

/-- `PG_TAG` is no core word. -/
theorem pgTag : Statement (.pgTag) := by
  intro op b h; cases h

/-- `PG_UNPOISON` is no core word. -/
theorem pgUnpoison : Statement (.pgUnpoison) := by
  intro op b h; cases h

/-- `PG_RESOLVE` is no core word. -/
theorem pgResolve : Statement (.pgResolve) := by
  intro op b h; cases h

/-- `PG_FORCEUNMAP` is no core word. -/
theorem pgForceunmap : Statement (.pgForceunmap) := by
  intro op b h; cases h

/-- `PG_QUERY` is no core word. -/
theorem pgQuery : Statement (.pgQuery) := by
  intro op b h; cases h

/-- `BUCKET_TICK` is no core word. -/
theorem bucketTick : Statement (.bucketTick) := by
  intro op b h; cases h

/-- `THERMAL_STEP_MOVE` is no core word. -/
theorem thermalStepMove : Statement (.thermalStepMove) := by
  intro op b h; cases h

/-- `SD0_LOSS` is no core word. -/
theorem sd0Loss : Statement (.sd0Loss) := by
  intro op b h; cases h

/-- `SIDEBAND_SILENCE` is no core word. -/
theorem sidebandSilence : Statement (.sidebandSilence) := by
  intro op b h; cases h

/-- `VERSION` is no core word. -/
theorem version : Statement (.version) := by
  intro op b h; cases h

/-- `ATTEST` is no core word. -/
theorem attest : Statement (.attest) := by
  intro op b h; cases h

/-- `EXTEND` is no core word. -/
theorem extend : Statement (.extend) := by
  intro op b h; cases h

/-- `SETPKEY` is no core word. -/
theorem setpkey : Statement (.setpkey) := by
  intro op b h; cases h

/-- `RASREAD` is no core word. -/
theorem rasread : Statement (.rasread) := by
  intro op b h; cases h

/-- `SENSORS` is no core word. -/
theorem sensors : Statement (.sensors) := by
  intro op b h; cases h

/-- `RECOVER` is no core word. -/
theorem recover : Statement (.recover) := by
  intro op b h; cases h

/-- `SETPART` is no core word. -/
theorem setpart : Statement (.setpart) := by
  intro op b h; cases h

/-- `DEBUG_HALT` is no core word. -/
theorem debugHalt : Statement (.debugHalt) := by
  intro op b h; cases h

/-- `DEBUG_RESUME` is no core word. -/
theorem debugResume : Statement (.debugResume) := by
  intro op b h; cases h

/-- `DEBUG_STEP1` is no core word. -/
theorem debugStep1 : Statement (.debugStep1) := by
  intro op b h; cases h

/-- `DEBUG_STATUS` is no core word. -/
theorem debugStatus : Statement (.debugStatus) := by
  intro op b h; cases h

/-- `DEBUG_EVENTS` is no core word. -/
theorem debugEvents : Statement (.debugEvents) := by
  intro op b h; cases h

/-- `POWER_LOSS` is no core word. -/
theorem powerLoss : Statement (.powerLoss) := by
  intro op b h; cases h

end Sys2Proof.Laws.Opcode
end

