-- ==== Sys2Proof/Tests/Slice0.lean ====
section
/-!
SUPPORT. The model's own tests: ill-formed instructions that WellFormed refuses, words written out from the spec's encodings, the worked
results of the spec, and for each statement a state and operands that meet its hypotheses.
-/
namespace Sys2Proof.Tests
open Sys2Proof Sys2Proof.Machine
set_option Elab.async false

/-! ### WellFormed refuses what the checks refuse -/

/-- A word by its fields, each with the place of its lowest bit. -/
def bits (fs : List (Nat × Nat)) : Nat := fs.foldr (fun f n => f.1 <<< f.2 + n) 0

/-- The register of an encoding below 240 (R83). -/
def v (n : Nat) : Opnd := .ofCode n

/-- An ill-formed instruction for each kind of check 3 and 4 of R92, and of R375. -/
def illFormed : List Instr :=
  [-- check 3: a type the word does not permit (R137), a MOD bit not listed (R141), an unused field not 0 (R141)
   .iadd ⟨.always, v 2, v 4, v 6, v 0, .f32, 0, .none⟩, .iadd ⟨.always, v 2, v 4, v 6, v 0, .s32, 2, .none⟩,
   .iadd ⟨.always, v 2, v 4, v 6, v 1, .s32, 0, .none⟩,
   -- HO = 3 where the result is a pair (R86), a shift immediate of the width (R157), T2 of MOVH (R155)
   .iaddc ⟨.always, v 2, v 4, v 6, v 8, .z32, 0, .keep 0 .r⟩, .shli ⟨.always, v 2, v 4, .z32, 0, 32⟩, .movh ⟨.always, v 2, 1, 0, 0⟩,
   -- a conversion between types that the table does not list (R174), a format M field out of range (R226), CCTL's OFF12 (R247)
   .cvtp ⟨.always, v 2, v 4, v 6, .s32, .s32, 0, .none⟩, .ld ⟨.always, v 2, v 4, v 0, 5, 0, false, 0, false, 0⟩,
   .cctl ⟨.always, v 2, v 4, v 0, 0, 0, false, 0, false, 4⟩,
   -- an object word with a channel (R270), an MMA shape that is not listed (R291), SEL16 of NOP (R91), OFF22 of RET
   .barv ⟨.always, v 2, v 4, v 0, v 0, 0, 1, 0⟩, .mma ⟨.always, v 2, v 8, v 16, v 24, 0, 31, 0, false⟩,
   .nop ⟨.always, v 0, v 0, 1⟩, .bra ⟨.always, 1, v 0, 1⟩,
   -- check 4: a reserved encoding, vo as a destination (R83), an odd pair (R84), a reserved encoding as the guard
   .iadd ⟨.always, .rsvd 0, v 4, v 6, v 0, .s32, 0, .none⟩, .iadd ⟨.always, .vo, v 4, v 6, v 0, .s32, 0, .none⟩,
   .iadd ⟨.always, v 3, v 4, v 6, v 0, .s64, 0, .none⟩, .iadd ⟨.on false (.rsvd 1), v 2, v 4, v 6, v 0, .s32, 0, .none⟩,
   -- Truss words: unused fields (R379), signal 15 (R386), IMM of FIN (R387), element type and operation of RED (R384), WIN of CHUNK (R381)
   .trussNop ⟨1, 0, 0⟩, .trussMovi ⟨0, 1, 0⟩, .trussBra ⟨1, 0, 0⟩, .trussBnz ⟨1, 0, 0⟩, .trussWait ⟨15, 0, 1⟩, .trussSig ⟨15, 0, 1⟩, .trussBar ⟨0, 0, 1⟩,
   .trussFin ⟨0, 0, 0x2000000⟩, .trussRed ⟨0, 0, 0, 0, 0, 4, 0, 0⟩, .trussRed ⟨0, 0, 0, 0, 0, 0, 3, 0⟩, .trussRedsend ⟨0, 0, 0, 0, 0, 0, 0, 15⟩,
   .trussCopy ⟨0, 0, 0, 0, 1, 0, 0, 0⟩, .trussRecv ⟨0, 0, 0, 0, 0, 0, 0, 1⟩, .trussSend ⟨0, 0, 0, 0, 0, 1, 0, 0⟩, .trussChunk ⟨0, 0, 0, 0, 0, 2, 0, 0⟩]

theorem test_ill_formed : (illFormed.all fun i => !i.wf) = true := by decide +kernel

/-! ### Words written out from the encoding tables -/

/-- Words of the integer opcodes, and the instructions they stand for (R80, R89). -/
def integer1Words : List (Nat × Instr) :=
  [(bits [(0x00, 56), (34, 38), (36, 30), (40, 22)], .iadd ⟨.always, v 34, v 36, v 40, v 0, .s32, 0, .none⟩),
   (bits [(0x01, 56), (34, 38), (36, 30), (40, 22)], .isub ⟨.always, v 34, v 36, v 40, v 0, .s32, 0, .none⟩),
   (bits [(0x02, 56), (34, 38), (36, 30), (40, 22), (48, 14), (1, 10)], .iaddc ⟨.always, v 34, v 36, v 40, v 48, .z32, 0, .none⟩),
   (bits [(0x03, 56), (34, 38), (36, 30), (40, 22), (48, 14), (1, 10)], .isubb ⟨.always, v 34, v 36, v 40, v 48, .z32, 0, .none⟩),
   (bits [(0x04, 56), (34, 38), (36, 30)], .ineg ⟨.always, v 34, v 36, v 0, v 0, .s32, 0, .none⟩),
   (bits [(0x05, 56), (34, 38), (36, 30)], .iabs ⟨.always, v 34, v 36, v 0, v 0, .s32, 0, .none⟩),
   (bits [(0x06, 56), (34, 38), (36, 30), (40, 22)], .imul ⟨.always, v 34, v 36, v 40, v 0, .s32, 0, .none⟩),
   (bits [(0x07, 56), (34, 38), (36, 30), (40, 22)], .imulh ⟨.always, v 34, v 36, v 40, v 0, .s32, 0, .none⟩),
   (bits [(0x08, 56), (34, 38), (36, 30), (40, 22), (48, 14)], .imad ⟨.always, v 34, v 36, v 40, v 48, .s32, 0, .none⟩),
   (bits [(0x09, 56), (34, 38), (36, 30), (40, 22), (48, 14)], .imadw ⟨.always, v 34, v 36, v 40, v 48, .s32, 0, .none⟩),
   (bits [(0x0A, 56), (34, 38), (36, 30), (40, 22)], .idiv ⟨.always, v 34, v 36, v 40, v 0, .s32, 0, .none⟩),
   (bits [(0x0B, 56), (34, 38), (36, 30), (40, 22)], .irem ⟨.always, v 34, v 36, v 40, v 0, .s32, 0, .none⟩),
   (bits [(0x0C, 56), (34, 38), (36, 30), (40, 22)], .imin ⟨.always, v 34, v 36, v 40, v 0, .s32, 0, .none⟩),
   (bits [(0x0D, 56), (34, 38), (36, 30), (40, 22)], .imax ⟨.always, v 34, v 36, v 40, v 0, .s32, 0, .none⟩),
   (bits [(0x0E, 56), (34, 38), (36, 30), (40, 22)], .icmp ⟨.always, v 34, v 36, v 40, v 0, .s32, 0, .none⟩),
   (bits [(0x0F, 56), (34, 38), (36, 30), (40, 22), (48, 14), (1, 10)], .isel ⟨.always, v 34, v 36, v 40, v 48, .z32, 0, .none⟩)]

/-- Words of the integer opcodes, and the instructions they stand for (R80, R89). -/
def integer2Words : List (Nat × Instr) :=
  [(bits [(0x10, 56), (34, 38), (36, 30), (40, 22), (1, 10)], .andL ⟨.always, v 34, v 36, v 40, v 0, .z32, 0, .none⟩),
   (bits [(0x11, 56), (34, 38), (36, 30), (40, 22), (1, 10)], .orL ⟨.always, v 34, v 36, v 40, v 0, .z32, 0, .none⟩),
   (bits [(0x12, 56), (34, 38), (36, 30), (40, 22), (1, 10)], .xorL ⟨.always, v 34, v 36, v 40, v 0, .z32, 0, .none⟩),
   (bits [(0x13, 56), (34, 38), (36, 30), (40, 22), (1, 10)], .andn ⟨.always, v 34, v 36, v 40, v 0, .z32, 0, .none⟩),
   (bits [(0x14, 56), (34, 38), (36, 30), (40, 22), (1, 10)], .orn ⟨.always, v 34, v 36, v 40, v 0, .z32, 0, .none⟩),
   (bits [(0x15, 56), (34, 38), (36, 30), (40, 22), (1, 10)], .shl ⟨.always, v 34, v 36, v 40, v 0, .z32, 0, .none⟩),
   (bits [(0x16, 56), (34, 38), (36, 30), (40, 22), (1, 10)], .shr ⟨.always, v 34, v 36, v 40, v 0, .z32, 0, .none⟩),
   (bits [(0x17, 56), (34, 38), (36, 30), (40, 22)], .sar ⟨.always, v 34, v 36, v 40, v 0, .s32, 0, .none⟩),
   (bits [(0x18, 56), (34, 38), (36, 30), (40, 22), (1, 10)], .rotl ⟨.always, v 34, v 36, v 40, v 0, .z32, 0, .none⟩),
   (bits [(0x19, 56), (34, 38), (36, 30), (40, 22), (48, 14), (1, 10)], .funl ⟨.always, v 34, v 36, v 40, v 48, .z32, 0, .none⟩),
   (bits [(0x1A, 56), (34, 38), (36, 30), (40, 22)], .bfx ⟨.always, v 34, v 36, v 40, v 0, .s32, 0, .none⟩),
   (bits [(0x1B, 56), (34, 38), (36, 30), (40, 22), (48, 14), (1, 10)], .bfi ⟨.always, v 34, v 36, v 40, v 48, .z32, 0, .none⟩),
   (bits [(0x1C, 56), (34, 38), (36, 30), (1, 10)], .popc ⟨.always, v 34, v 36, v 0, v 0, .z32, 0, .none⟩),
   (bits [(0x1D, 56), (34, 38), (36, 30), (1, 10)], .clz ⟨.always, v 34, v 36, v 0, v 0, .z32, 0, .none⟩),
   (bits [(0x1E, 56), (34, 38), (36, 30), (1, 10)], .ctz ⟨.always, v 34, v 36, v 0, v 0, .z32, 0, .none⟩),
   (bits [(0x1F, 56), (34, 38), (36, 30), (1, 10)], .brev ⟨.always, v 34, v 36, v 0, v 0, .z32, 0, .none⟩)]

/-- Words of the integer opcodes, and the instructions they stand for (R80, R89). -/
def integer3Words : List (Nat × Instr) :=
  [(bits [(0x20, 56), (34, 38), (36, 30), (40, 22), (48, 14), (1, 10)], .permb ⟨.always, v 34, v 36, v 40, v 48, .z32, 0, .none⟩),
   (bits [(0x21, 56), (34, 38), (36, 30), (40, 22)], .lea ⟨.always, v 34, v 36, v 40, v 0, .s32, 0, .none⟩),
   (bits [(0x22, 56), (34, 38), (36, 30), (1, 10)], .mov ⟨.always, v 34, v 36, v 0, v 0, .z32, 0, .none⟩),
   (bits [(0x23, 56), (34, 38), (77, 0)], .movi ⟨.always, v 34, 0, 0, 77⟩),
   (bits [(0x24, 56), (34, 38), (77, 0)], .movh ⟨.always, v 34, 0, 0, 77⟩),
   (bits [(0x25, 56), (34, 38), (36, 30), (5, 0)], .iaddi ⟨.always, v 34, v 36, .s32, 0, 5⟩),
   (bits [(0x26, 56), (34, 38), (36, 30), (5, 0)], .icmpi ⟨.always, v 34, v 36, .s32, 0, 5⟩),
   (bits [(0x27, 56), (34, 38), (36, 30), (1, 26), (5, 0)], .andi ⟨.always, v 34, v 36, .z32, 0, 5⟩),
   (bits [(0x28, 56), (34, 38), (36, 30), (1, 26), (5, 0)], .ori ⟨.always, v 34, v 36, .z32, 0, 5⟩),
   (bits [(0x29, 56), (34, 38), (36, 30), (1, 26), (5, 0)], .xori ⟨.always, v 34, v 36, .z32, 0, 5⟩),
   (bits [(0x2A, 56), (34, 38), (36, 30), (1, 26), (5, 0)], .shli ⟨.always, v 34, v 36, .z32, 0, 5⟩),
   (bits [(0x2B, 56), (34, 38), (36, 30), (1, 26), (5, 0)], .shri ⟨.always, v 34, v 36, .z32, 0, 5⟩),
   (bits [(0x2C, 56), (34, 38), (36, 30), (5, 0)], .sari ⟨.always, v 34, v 36, .s32, 0, 5⟩)]

/-- Words of the float opcodes, and the instructions they stand for (R80, R89). -/
def float1Words : List (Nat × Instr) :=
  [(bits [(0x40, 56), (34, 38), (36, 30), (40, 22), (4, 10)], .fadd ⟨.always, v 34, v 36, v 40, v 0, .f32, 0, .none⟩),
   (bits [(0x41, 56), (34, 38), (36, 30), (40, 22), (4, 10)], .fsub ⟨.always, v 34, v 36, v 40, v 0, .f32, 0, .none⟩),
   (bits [(0x42, 56), (34, 38), (36, 30), (40, 22), (4, 10)], .fmul ⟨.always, v 34, v 36, v 40, v 0, .f32, 0, .none⟩),
   (bits [(0x43, 56), (34, 38), (36, 30), (40, 22), (48, 14), (4, 10)], .ffma ⟨.always, v 34, v 36, v 40, v 48, .f32, 0, .none⟩),
   (bits [(0x44, 56), (34, 38), (36, 30), (40, 22), (4, 10)], .fmin ⟨.always, v 34, v 36, v 40, v 0, .f32, 0, .none⟩),
   (bits [(0x45, 56), (34, 38), (36, 30), (40, 22), (4, 10)], .fmax ⟨.always, v 34, v 36, v 40, v 0, .f32, 0, .none⟩),
   (bits [(0x46, 56), (34, 38), (36, 30), (40, 22), (4, 10)], .fminm ⟨.always, v 34, v 36, v 40, v 0, .f32, 0, .none⟩),
   (bits [(0x47, 56), (34, 38), (36, 30), (40, 22), (4, 10)], .fmaxm ⟨.always, v 34, v 36, v 40, v 0, .f32, 0, .none⟩),
   (bits [(0x48, 56), (34, 38), (36, 30), (40, 22), (4, 10)], .fcmp ⟨.always, v 34, v 36, v 40, v 0, .f32, 0, .none⟩),
   (bits [(0x49, 56), (34, 38), (36, 30), (4, 10)], .fclass ⟨.always, v 34, v 36, v 0, v 0, .f32, 0, .none⟩),
   (bits [(0x4A, 56), (34, 38), (36, 30), (4, 10)], .frnd ⟨.always, v 34, v 36, v 0, v 0, .f32, 0, .none⟩),
   (bits [(0x4B, 56), (34, 38), (36, 30), (40, 22), (4, 10)], .fscale ⟨.always, v 34, v 36, v 40, v 0, .f32, 0, .none⟩),
   (bits [(0x4C, 56), (34, 38), (36, 30), (4, 10)], .fexpx ⟨.always, v 34, v 36, v 0, v 0, .f32, 0, .none⟩),
   (bits [(0x4D, 56), (34, 38), (36, 30), (40, 22), (4, 10)], .fdiv ⟨.always, v 34, v 36, v 40, v 0, .f32, 0, .none⟩),
   (bits [(0x4E, 56), (34, 38), (36, 30), (4, 10)], .fsqrt ⟨.always, v 34, v 36, v 0, v 0, .f32, 0, .none⟩),
   (bits [(0x4F, 56), (34, 38), (36, 30), (4, 10)], .frcp ⟨.always, v 34, v 36, v 0, v 0, .f32, 0, .none⟩)]

/-- Words of the float opcodes, and the instructions they stand for (R80, R89). -/
def float2Words : List (Nat × Instr) :=
  [(bits [(0x50, 56), (34, 38), (36, 30), (4, 10)], .frsq ⟨.always, v 34, v 36, v 0, v 0, .f32, 0, .none⟩),
   (bits [(0x51, 56), (34, 38), (36, 30), (4, 10)], .fexp2 ⟨.always, v 34, v 36, v 0, v 0, .f32, 0, .none⟩),
   (bits [(0x52, 56), (34, 38), (36, 30), (4, 10)], .flog2 ⟨.always, v 34, v 36, v 0, v 0, .f32, 0, .none⟩),
   (bits [(0x53, 56), (34, 38), (36, 30), (4, 10)], .fsinp ⟨.always, v 34, v 36, v 0, v 0, .f32, 0, .none⟩),
   (bits [(0x54, 56), (34, 38), (36, 30), (4, 10)], .fcosp ⟨.always, v 34, v 36, v 0, v 0, .f32, 0, .none⟩),
   (bits [(0x55, 56), (34, 38), (36, 30), (4, 10)], .ftanh ⟨.always, v 34, v 36, v 0, v 0, .f32, 0, .none⟩),
   (bits [(0x56, 56), (34, 38), (36, 30), (40, 22), (48, 14), (8, 10)], .fdot2 ⟨.always, v 34, v 36, v 40, v 48, .h2, 0, .none⟩),
   (bits [(0x57, 56), (34, 38), (36, 30)], .cvt ⟨.always, v 34, v 36, v 0, .s32, .s32, 0, .none⟩),
   (bits [(0x58, 56), (34, 38), (36, 30), (40, 22), (4, 14), (8, 10)], .cvtp ⟨.always, v 34, v 36, v 40, .h2, .f32, 0, .none⟩),
   (bits [(0x59, 56), (34, 38), (36, 30), (8, 14), (4, 10)], .cvtq ⟨.always, v 34, v 36, v 0, .f32, .h2, 0, .none⟩),
   (bits [(0x5A, 56), (36, 30), (9, 10)], .cbx ⟨.always, v 0, v 36, v 0, .b2, 0, 0, .none⟩)]

/-- Words of the lane opcodes, and the instructions they stand for (R80, R89). -/
def laneWords : List (Nat × Instr) :=
  [(bits [(0x80, 56), (34, 38), (36, 30), (40, 22), (48, 14), (1, 10)], .shfl ⟨.always, v 34, v 36, v 40, v 48, .z32, 0, .none⟩),
   (bits [(0x81, 56), (34, 38), (36, 30), (48, 14), (1, 10)], .qswap ⟨.always, v 34, v 36, v 0, v 48, .z32, 0, .none⟩),
   (bits [(0x82, 56), (34, 38), (36, 30), (48, 14), (1, 10)], .qbc ⟨.always, v 34, v 36, v 0, v 48, .z32, 0, .none⟩),
   (bits [(0x83, 56), (34, 38), (36, 30), (1, 10)], .vote ⟨.always, v 34, v 36, v 0, v 0, .z32, 0, .none⟩),
   (bits [(0x84, 56), (34, 38), (36, 30), (1, 10)], .matchV ⟨.always, v 34, v 36, v 0, v 0, .z32, 0, .none⟩),
   (bits [(0x85, 56), (34, 38), (36, 30)], .xred ⟨.always, v 34, v 36, v 0, v 0, .s32, 0, .none⟩),
   (bits [(0x86, 56), (34, 38), (36, 30)], .xscan ⟨.always, v 34, v 36, v 0, v 0, .s32, 0, .none⟩),
   (bits [(0x87, 56), (34, 38), (1, 10)], .lmask ⟨.always, v 34, v 0, v 0, v 0, .z32, 0, .none⟩)]

/-- Words of the memory opcodes, and the instructions they stand for (R80, R89). -/
def memoryWords : List (Nat × Instr) :=
  [(bits [(0x90, 56), (34, 38), (36, 30)], .ld ⟨.always, v 34, v 36, v 0, 0, 0, false, 0, false, 0⟩),
   (bits [(0x91, 56), (36, 30), (40, 22)], .st ⟨.always, v 0, v 36, v 40, 0, 0, false, 0, false, 0⟩),
   (bits [(0x92, 56), (34, 38), (36, 30), (40, 22), (2, 19)], .atom ⟨.always, v 34, v 36, v 40, 2, 0, false, 0, false, 0⟩),
   (bits [(0x93, 56), (36, 30), (40, 22), (2, 19)], .ared ⟨.always, v 0, v 36, v 40, 2, 0, false, 0, false, 0⟩),
   (bits [(0x94, 56), (34, 38), (36, 30), (3, 16)], .fld ⟨.always, v 34, v 36, v 0, 0, 3, false, 0, false, 0⟩),
   (bits [(0x95, 56), (34, 38), (36, 30), (40, 22), (3, 16)], .fst ⟨.always, v 34, v 36, v 40, 0, 3, false, 0, false, 0⟩),
   (bits [(0x96, 56), (34, 38), (36, 30), (40, 22), (2, 19), (3, 16)], .fatom ⟨.always, v 34, v 36, v 40, 2, 3, false, 0, false, 0⟩),
   (bits [(0x97, 56), (34, 38), (36, 30), (40, 22), (3, 16)], .mcst ⟨.always, v 34, v 36, v 40, 0, 3, false, 0, false, 0⟩),
   (bits [(0x98, 56), (40, 38), (36, 30)], .tld ⟨.always, v 40, v 36, v 0, 0, 0, false, 0, false, 0⟩),
   (bits [(0x99, 56), (36, 30), (40, 22)], .tst ⟨.always, v 0, v 36, v 40, 0, 0, false, 0, false, 0⟩),
   (bits [(0x9A, 56), (36, 30)], .pref ⟨.always, v 0, v 36, v 0, 0, 0, false, 0, false, 0⟩),
   (bits [(0x9B, 56), (34, 38), (36, 30)], .cctl ⟨.always, v 34, v 36, v 0, 0, 0, false, 0, false, 0⟩),
   (bits [(0x9C, 56), (1, 0)], .fence ⟨.always, v 0, v 0, v 0, 0, 0, false, 0, false, 1⟩),
   (bits [(0x9D, 56), (40, 22), (3, 19)], .recW ⟨.always, v 0, v 0, v 40, 3, 0, false, 0, false, 0⟩)]

/-- Words of the transfer opcodes, and the instructions they stand for (R80, R89). -/
def transferWords : List (Nat × Instr) :=
  [(bits [(0xB0, 56), (36, 30), (40, 22)], .binit ⟨.always, v 0, v 36, v 40, v 0, 0, 0, 0⟩),
   (bits [(0xB1, 56), (34, 38), (36, 30)], .barv ⟨.always, v 34, v 36, v 0, v 0, 0, 0, 0⟩),
   (bits [(0xB2, 56), (34, 38), (36, 30), (40, 22)], .barx ⟨.always, v 34, v 36, v 40, v 0, 0, 0, 0⟩),
   (bits [(0xB3, 56), (36, 30)], .bdrop ⟨.always, v 0, v 36, v 0, v 0, 0, 0, 0⟩),
   (bits [(0xB4, 56), (36, 30), (40, 22)], .bwait ⟨.always, v 0, v 36, v 40, v 0, 0, 0, 0⟩),
   (bits [(0xB5, 56), (34, 38), (36, 30), (40, 22)], .btest ⟨.always, v 34, v 36, v 40, v 0, 0, 0, 0⟩),
   (bits [(0xB6, 56), (36, 30), (40, 22), (48, 14), (3, 8), (3, 6)], .bxc ⟨.always, v 0, v 36, v 40, v 48, 3, 3, 0⟩),
   (bits [(0xB7, 56), (36, 30), (40, 22), (48, 14), (3, 8), (3, 6)], .bxs ⟨.always, v 0, v 36, v 40, v 48, 3, 3, 0⟩),
   (bits [(0xB8, 56), (40, 22), (3, 8)], .tmpl ⟨.always, v 0, v 0, v 40, v 0, 3, 0, 0⟩),
   (bits [(0xB9, 56), (36, 30)], .pub ⟨.always, v 0, v 36, v 0, v 0, 0, 0, 0⟩),
   (bits [(0xBA, 56), (34, 38), (3, 6)], .bxcan ⟨.always, v 34, v 0, v 0, v 0, 0, 3, 0⟩)]

/-- Words of the tile opcodes, and the instructions they stand for (R80, R89). -/
def tileWords : List (Nat × Instr) :=
  [(bits [(0xC0, 56), (40, 22), (48, 14), (1, 11), (4, 6)], .mma ⟨.always, v 0, v 0, v 40, v 48, 1, 4, 0, false⟩),
   (bits [(0xC1, 56), (36, 30), (1, 11)], .jset ⟨.always, v 0, v 36, v 0, v 0, 1, 0, 0, false⟩),
   (bits [(0xC2, 56), (1, 11)], .jclr ⟨.always, v 0, v 0, v 0, v 0, 1, 0, 0, false⟩),
   (bits [(0xC3, 56), (36, 30)], .cbld ⟨.always, v 0, v 36, v 0, v 0, 0, 0, 0, false⟩)]

/-- Words of the control opcodes, and the instructions they stand for (R80, R89). -/
def controlWords : List (Nat × Instr) :=
  [(bits [(0xD0, 56)], .nop ⟨.always, v 0, v 0, 0⟩),
   (bits [(0xD1, 56), (1, 24)], .bra ⟨.always, 1, v 0, 0⟩),
   (bits [(0xD2, 56), (36, 30), (3, 10)], .brx ⟨.always, v 0, v 36, v 0, v 0, .z64, 0, .none⟩),
   (bits [(0xD3, 56), (1, 24), (36, 16)], .call ⟨.always, 1, v 36, 0⟩),
   (bits [(0xD4, 56), (36, 30), (3, 10)], .ret ⟨.always, v 0, v 36, v 0, v 0, .z64, 0, .none⟩),
   (bits [(0xD5, 56)], .exit ⟨.always, v 0, v 0, 0⟩),
   (bits [(0xD6, 56)], .yield ⟨.always, v 0, v 0, 0⟩),
   (bits [(0xD7, 56), (36, 30), (1, 26), (5, 0)], .sleep ⟨.always, v 0, v 36, .z32, 0, 5⟩),
   (bits [(0xD8, 56)], .trap ⟨.always, v 0, v 0, 0⟩),
   (bits [(0xD9, 56)], .bkpt ⟨.always, v 0, v 0, 0⟩),
   (bits [(0xDA, 56), (36, 30)], .step ⟨.always, v 0, v 36, 0⟩),
   (bits [(0xDB, 56), (36, 30), (40, 22), (1, 10)], .tracew ⟨.always, v 0, v 36, v 40, v 0, .z32, 0, .none⟩)]

/-- Words of the system opcodes, and the instructions they stand for (R80, R89). -/
def systemWords : List (Nat × Instr) :=
  [(bits [(0xE0, 56), (34, 38)], .s2v ⟨.always, v 34, v 0, 0⟩),
   (bits [(0xE1, 56), (36, 30), (128, 0)], .v2s ⟨.always, v 0, v 36, 128⟩),
   (bits [(0xE2, 56)], .rft ⟨.always, v 0, v 0, 0⟩),
   (bits [(0xE3, 56), (34, 38), (246, 30), (1, 10)], .kswap ⟨.always, v 34, .kreg 0, v 0, v 0, .z32, 0, .none⟩),
   (bits [(0xE4, 56), (34, 38)], .tsr ⟨.always, v 34, v 0, 0⟩),
   (bits [(0xE5, 56), (36, 30)], .tsw ⟨.always, v 0, v 36, 0⟩),
   (bits [(0xE6, 56), (36, 30)], .haltg ⟨.always, v 0, v 36, 0⟩),
   (bits [(0xE7, 56), (36, 30)], .tlbi ⟨.always, v 0, v 36, v 0, v 0, .s32, 0, .none⟩),
   (bits [(0xE8, 56), (34, 38), (36, 30), (3, 0)], .tokq ⟨.always, v 34, v 36, 3⟩),
   (bits [(0xE9, 56), (34, 38), (36, 30), (40, 22), (1, 10)], .intent ⟨.always, v 34, v 36, v 40, v 0, .z32, 0, .none⟩),
   (bits [(0xEA, 56), (34, 38), (36, 30), (40, 22)], .ballast ⟨.always, v 34, v 36, v 40, v 0, .s32, 0, .none⟩)]

/-- Truss words, and the instructions they stand for (R377). -/
def trussWords : List (Nat × Instr) :=
  [(bits [(0x00, 58)], .trussNop ⟨0, 0, 0⟩),
   (bits [(0x01, 58), (3, 54), (281474976710655, 0)], .trussMovi ⟨3, 0, -1⟩),
   (bits [(0x02, 58), (3, 54), (4, 50), (5, 0)], .trussAddi ⟨3, 4, 5⟩),
   (bits [(0x03, 58), (3, 54), (4, 50), (6, 46)], .trussAdd ⟨3, 4, 6⟩),
   (bits [(0x04, 58), (15, 54), (14, 50), (7, 0)], .trussMuli ⟨15, 14, 7⟩),
   (bits [(0x05, 58), (1, 54), (2, 50), (1, 0)], .trussPeer ⟨1, 2, 1⟩),
   (bits [(0x06, 58), (1, 54), (36, 0)], .trussParam ⟨1, 0, 36⟩),
   (bits [(0x07, 58), (63, 52), (1, 42), (2, 38), (3, 34), (1, 30)], .trussChunk ⟨63, 0, 1, 2, 3, 1, 0, 0⟩),
   (bits [(0x08, 58), (281474976710654, 0)], .trussBra ⟨0, 0, -2⟩),
   (bits [(0x09, 58), (5, 50), (3, 0)], .trussBnz ⟨0, 5, 3⟩),
   (bits [(0x0A, 58), (5, 50), (281474976710653, 0)], .trussLoop ⟨0, 5, -3⟩),
   (bits [(0x0B, 58), (14, 54), (1, 0)], .trussWait ⟨14, 0, 1⟩),
   (bits [(0x0C, 58), (2, 54), (9, 50), (1, 0)], .trussSig ⟨2, 9, 1⟩),
   (bits [(0x0D, 58)], .trussBar ⟨0, 0, 0⟩),
   (bits [(0x0E, 58), (1, 24), (77, 0)], .trussFin ⟨0, 0, 0x100004D⟩),
   (bits [(0x0F, 58), (4660, 0)], .trussTrap ⟨0, 0, 4660⟩),
   (bits [(0x10, 58), (1, 52), (2, 46), (3, 42), (4, 38), (5, 34), (6, 24)], .trussSend ⟨1, 2, 3, 4, 5, 0, 0, 6⟩),
   (bits [(0x11, 58), (1, 52), (2, 46), (3, 42), (4, 38), (5, 34)], .trussRecv ⟨1, 2, 3, 4, 5, 0, 0, 0⟩),
   (bits [(0x12, 58), (1, 52), (2, 46), (3, 42), (4, 38), (3, 30), (2, 28)], .trussRed ⟨1, 2, 3, 4, 0, 3, 2, 0⟩),
   (bits [(0x13, 58), (1, 52), (2, 46), (3, 42), (4, 38), (5, 34), (2, 30), (1, 28), (6, 24)], .trussRedsend ⟨1, 2, 3, 4, 5, 2, 1, 6⟩),
   (bits [(0x14, 58), (1, 52), (2, 46), (3, 42), (4, 38)], .trussCopy ⟨1, 2, 3, 4, 0, 0, 0, 0⟩),
   (bits [(0x15, 58), (1, 52), (2, 46), (3, 42), (4, 38), (5, 34), (6, 24)], .trussMcast ⟨1, 2, 3, 4, 5, 0, 0, 6⟩)]

/-- The core words above. -/
def coreWords : List (Nat × Instr) :=
  integer1Words ++ integer2Words ++ integer3Words ++ float1Words ++ float2Words ++ laneWords ++ memoryWords ++ transferWords ++ tileWords ++
    controlWords ++ systemWords

/-- A core word decodes to its instruction, whose encoding it is. -/
def decodesTo (x : Nat × Instr) : Bool :=
  match decodeWord (.ofNat 64 x.1) with
  | .ok i => decide (i.core = x.2.core) && i.wf && decide ((encode x.2).toNat = x.1)
  | .error _ => false

theorem test_decode_integer : ((integer1Words ++ integer2Words ++ integer3Words).all decodesTo) = true := by decide +kernel
theorem test_decode_float : ((float1Words ++ float2Words).all decodesTo) = true := by decide +kernel
theorem test_decode_lane : (laneWords.all decodesTo) = true := by decide +kernel
theorem test_decode_memory : (memoryWords.all decodesTo) = true := by decide +kernel
theorem test_decode_transfer : (transferWords.all decodesTo) = true := by decide +kernel
theorem test_decode_tile : (tileWords.all decodesTo) = true := by decide +kernel
theorem test_decode_control : (controlWords.all decodesTo) = true := by decide +kernel
theorem test_decode_system : (systemWords.all decodesTo) = true := by decide +kernel
theorem test_decode_truss : (trussWords.all fun x => decide ((decodeTruss (.ofNat 64 x.1)).map (·.truss) = some x.2.truss) && decide ((encode x.2).toNat = x.1)) = true := by
  decide +kernel

/-- A guarded word with a hold: `FFMA.f32 v9, v1, v2, l1` guarded by NOT v7, its result held in l0: GE 55, GN 54, GREG 53:46, HS 5:4, HO 3:2. -/
theorem test_decode_guard_hold :
    decodesTo (bits [(0x43, 56), (1, 55), (1, 54), (7, 46), (9, 38), (1, 30), (2, 22), (0xF1, 14), (4, 10), (1, 4), (3, 2)], .ffma ⟨.on true (.reg 7), .reg 9, .reg 1, .reg 2, .latch 1, .f32, 0, .keep 0 .r⟩) = true := by decide +kernel

/-- Reserved bits, guard fields without `GE`, and `HO` without `HS` are no instruction (R80, R81, R86). -/
theorem test_decode_refuses :
    ([(1, 0), (1, 54), (1, 46), (1, 2), (0x2D, 56), (0x5B, 56), (0x88, 56), (0x9E, 56), (0xBB, 56), (0xC4, 56), (0xDC, 56), (0xEB, 56),
      (0xFF, 56)].all fun f => (decodeTableWord 64 (bits [f])).isNone) = true := by
  decide +kernel

/-- A packet of a type. -/
def packet (k : Nat) : Packet := { words := [.ofNat 64 k, 0, 0, 0, 0, 0, 0, 0], ext := [] }

/-- The packet types of R50, in bits 7:0 of word 0; 11 and above are reserved. -/
theorem test_decode_packets :
    decodePacket 5 (packet 0) = some (.nopPacket 5 (packet 0)) ∧ decodePacket 5 (packet 1) = some (.launch 5 (packet 1)) ∧
    decodePacket 5 (packet 2) = some (.waitPacket 5 (packet 2)) ∧ decodePacket 5 (packet 3) = some (.signal 5 (packet 3)) ∧
    decodePacket 5 (packet 4) = some (.copyPacket 5 (packet 4)) ∧ decodePacket 5 (packet 5) = some (.loadsched 5 (packet 5)) ∧
    decodePacket 5 (packet 6) = some (.runsched 5 (packet 6)) ∧ decodePacket 5 (packet 7) = some (.depend 5 (packet 7)) ∧
    decodePacket 5 (packet 8) = some (.stepmark 5 (packet 8)) ∧ decodePacket 5 (packet 9) = some (.publish 5 (packet 9)) ∧
    decodePacket 5 (packet 10) = some (.collect 5 (packet 10)) ∧ decodePacket 5 (packet 11) = none ∧ decodePacket 5 (packet 255) = none :=
  ⟨rfl, rfl, rfl, rfl, rfl, rfl, rfl, rfl, rfl, rfl, rfl, rfl, rfl⟩

/-! ### States for the witnesses -/

/-- A descriptor of the grid: BF16 A tiles of shape 2 in a tensor of 16 rows of 32 elements at parameter 0. -/
def tileA : Tile := { param := 0, hv := false, hslot := 0, elt := 2, role := 0, shape := 2, rows := 16, cols := 32, stride := 64, mx := 0, my := 0, mi := 1,
                      m0 := 0, nx := 0, ny := 0, ni := 0, n0 := 0 }

/-- A core word placed at slot 1 of a clause whose group stands there: thread 1024, alone in block 1 on core 0, at level F, with 240 registers
of 0 and a page of code and data at 0x10000 (log 3); its grid has one tile descriptor. -/
def demo (i : Instr) : State :=
  let s := State.reset.placeWord 64 (encode i).toNat
  s.setGr 1 { s.gr 1 with tiles := [tileA] }

/-- The group of `demo`. -/
def grp (i : Instr) : Group := { addr := placeVa, hdr := placeHdr (wordOp (encode i)), slot := 1, members := [1024] }

/-- `demo` with some registers set. -/
def demoR (i : Instr) (rs : List (Nat × Nat)) : State := (demo i).modTh 1024 fun t => rs.foldl (fun t r => t.setReg r.1 (.ofNat 32 r.2)) t

/-- One more translation held for the thread's context: a page of 64 KiB with its entry. -/
def page (s : State) (va pte : Nat) : State := { s with tlb := { loc := 0, asid := 0, va, pte := .ofNat 64 pte } :: s.tlb }

/-- Bytes at a location. -/
def withBytes (s : State) (loc n x : Nat) : State := { s with mem := Memory.put s.mem loc (natLe n x) }

/-- The word of an instruction issues for the one thread of a state, and the trace is off. -/
def solo (i : Instr) (s : State) : Bool :=
  match i.core with
  | some (op, b) => decide (Solo i s (grp i) op b 1024 ∧ Untraced s 1024)
  | none => false

/-- What `solo` decides. -/
theorem solo_spec {i : Instr} {s : State} (h : solo i s = true) : ∃ op b, Solo i s (grp i) op b 1024 ∧ Untraced s 1024 := by
  unfold solo at h
  split at h
  · next op b _ => exact ⟨op, b, of_decide_eq_true h⟩
  · cases h

/-- A result that is some value. -/
def isOk {ε α : Type} [DecidableEq α] (x : Except ε α) (y : α) : Bool :=
  match x with
  | .ok z => decide (z = y)
  | .error _ => false

/-- What `isOk` decides. -/
theorem isOk_spec {ε α : Type} [DecidableEq α] {x : Except ε α} {y : α} (h : isOk x y = true) : x = .ok y := by
  unfold isOk at h
  split at h
  · rw [of_decide_eq_true h]
  · cases h

/-! ### Witnesses: words of cores -/

/-- Every core opcode has a word that issues for one thread: what the statements on core words assume (integer, float, lane, and each `Solo`). -/
theorem wit_issues : (coreWords.all fun x => solo x.2 (demo x.2)) = true := by decide +kernel

/-- The table of words has every assigned opcode. -/
theorem wit_issues_all : coreWords.map (fun x => wordOp (.ofNat 64 x.1)) = (List.range 256).filter fun o => (opFmt o).isSome := by decide +kernel

/-- Every core word completes there. -/
theorem test_completes : (coreWords.all fun x => match exec x.2 (demo x.2) with | .next _ => true | _ => false) = true := by decide +kernel

/-- LatchHolds: a word with a hold. -/
def heldAdd : Instr := .iadd ⟨.always, .reg 9, .reg 1, .reg 2, .reg 0, .s32, 0, .keep 0 .r⟩
theorem wit_LatchHolds : solo heldAdd (demo heldAdd) = true ∧ (grp heldAdd).members.Nodup ∧ (demo heldAdd).resident 1024 = true := by decide +kernel

/-- ComputeFrame: a word that reads one register, whose word has an error. -/
def negW : Instr := .ineg ⟨.always, .reg 9, .reg 1, .reg 0, .reg 0, .s32, 0, .none⟩
theorem wit_ComputeFrame_error :
    solo negW (demo negW) = true ∧ ((demo negW).env (grp negW) 0x04 (.v3 ⟨.always, .reg 9, .reg 1, .reg 0, .reg 0, .s32, 0, .none⟩)).readRegs = [1] ∧
    (let s := (demo negW).modGg 32 fun g => { g with soft := [1] }
     1 ∈ (s.gg (tidGk 1024)).soft ∧ 1 ∉ (s.gg (tidGk 1024)).latent) ∧
    (let i : Instr := .ineg ⟨.on false (.reg 7), .reg 9, .vz, .reg 0, .reg 0, .s32, 0, .none⟩
     let b : Body := .v3 ⟨.on false (.reg 7), .reg 9, .vz, .reg 0, .reg 0, .s32, 0, .none⟩
     let s := (demo i).modGg 32 fun g => { g with latent := [7] }
     Issues i s (grp i) 0x04 b ∧ (s.env (grp i) 0x04 b).readRegs = [7] ∧ 7 ∈ (s.gg (tidGk 1024)).latent ∧ Acting s (grp i) b = []) := by decide +kernel

/-- A word guarded by a register that holds 0. -/
def offAdd : Instr := .iadd ⟨.on false (.reg 7), .reg 9, .reg 1, .reg 2, .reg 0, .s32, 0, .none⟩
theorem wit_GuardedOff : Issues offAdd (demo offAdd) (grp offAdd) 0 (.v3 ⟨.on false (.reg 7), .reg 9, .reg 1, .reg 2, .reg 0, .s32, 0, .none⟩) ∧
    Acting (demo offAdd) (grp offAdd) (.v3 ⟨.on false (.reg 7), .reg 9, .reg 1, .reg 2, .reg 0, .s32, 0, .none⟩) = [] := by decide +kernel

/-- Memory fields of a word: width 4 at the pair v2, data or result v4. -/
def memAt (sp : BitVec 3) (d x : Opnd) (off : BitVec 12) : Mem := ⟨.always, d, .reg 2, x, 2, sp, false, 0, false, off⟩
/-- v2 = 0x11000, the address of the witnesses; v4 = 7. -/
def rs : List (Nat × Nat) := [(2, 0x11000), (4, 7), (6, 9)]

def ld : Mem := memAt 0 (.reg 4) (.reg 0) 0
theorem wit_Loads : solo (.ld ld) (demoR (.ld ld) rs) = true ∧ hdrFlag (grp (.ld ld)).hdr ld.fs = some 0 ∧
    Reaches (demoR (.ld ld) rs) 1024 ld.sp.toNat 1 (memW ld) true false (memEa ld ((demoR (.ld ld) rs).th 1024) (memW ld)) (grp (.ld ld)).pc
      (.loc 0x1001000) := by decide +kernel

def st : Mem := memAt 0 (.reg 0) (.reg 4) 0
theorem wit_Stores : solo (.st st) (demoR (.st st) rs) = true ∧ ((demoR (.st st) rs).th 1024).helper = false ∧
    Reaches (demoR (.st st) rs) 1024 st.sp.toNat 1 (memW st) false true (memEa st ((demoR (.st st) rs).th 1024) (memW st)) (grp (.st st)).pc
      (.loc 0x1001000) ∧ (demoR (.st st) rs).inHst 0x1001000 (memW st) = false := by decide +kernel
theorem wit_Stores_helper : solo (.st st) ((demoR (.st st) rs).modTh 1024 fun t => { t with helper := true }) = true ∧
    (((demoR (.st st) rs).modTh 1024 fun t => { t with helper := true }).th 1024).helper = true := by decide +kernel

/-- `ATOM.ADD.s32` and `ARED.ADD.s32` at v2. -/
def atom : Mem := memAt 0 (.reg 4) (.reg 6) 0
def ared : Mem := memAt 0 (.reg 0) (.reg 6) 0
theorem wit_Atomics : solo (.atom atom) (demoR (.atom atom) rs) = true ∧ hdrFlag (grp (.atom atom)).hdr atom.fs = some 0 ∧
    Reaches (demoR (.atom atom) rs) 1024 atom.sp.toNat 1 (memW atom) true true (memEa atom ((demoR (.atom atom) rs).th 1024) 0) (grp (.atom atom)).pc
      (.loc 0x1001000) ∧ (demoR (.atom atom) rs).poisoned 0x1001000 (memW atom) = false ∧
    (demoR (.atom atom) rs).inHst 0x1001000 (memW atom) = false ∧ ((demoR (.atom atom) rs).th 1024).helper = false := by decide +kernel
theorem wit_Atomics_ared : solo (.ared ared) (demoR (.ared ared) rs) = true ∧
    Reaches (demoR (.ared ared) rs) 1024 ared.sp.toNat 1 (memW ared) true true (memEa ared ((demoR (.ared ared) rs).th 1024) 0) (grp (.ared ared)).pc
      (.loc 0x1001000) ∧ (demoR (.ared ared) rs).poisoned 0x1001000 (memW ared) = false ∧
    (demoR (.ared ared) rs).inHst 0x1001000 (memW ared) = false := by decide +kernel

/-- A window page of this device at 0x20000, of frame 0x2000000; of device 5 at 0x30000; and a multicast page of group 7 at 0x40000. -/
def windows (i : Instr) (rs : List (Nat × Nat)) : State :=
  page (page (page (demoR i rs) 0x20000 (1 + 4 + 32 + 64 + 0x200 <<< 28)) 0x30000 (1 + 4 + 32 + 64 + 5 <<< 8 + 0x200 <<< 28)) 0x40000
    (1 + 6 + 32 + 64 + 7 <<< 8)

def fld : Mem := memAt 3 (.reg 4) (.reg 0) 0
def fst : Mem := memAt 3 .vz (.reg 4) 0
/-- An `FST` whose flag is at the pair v8. -/
def fstF : Mem := memAt 3 (.reg 8) (.reg 4) 0
def fatom : Mem := memAt 3 (.reg 4) (.reg 6) 0
/-- v2 on the page of this device, and v8 another place there. -/
def rsHere : List (Nat × Nat) := [(2, 0x21000), (4, 7), (8, 0x21100)]
/-- v2 on the page of device 5. -/
def rsThere : List (Nat × Nat) := [(2, 0x31000), (4, 7)]

/-- A fabric word of the one thread passes its checks, reads or writes, and reaches a device and address. -/
def fabAt (i : Instr) (f : Mem) (rs : List (Nat × Nat)) (rd wr : Bool) (scale gdn pa : Nat) : Bool :=
  let s := windows i rs
  solo i s && decide ((s.th 1024).helper = false ∧ hdrFlag (grp i).hdr f.fs = some 0) &&
    (match (s.acs 1024 3 2 (memW f) rd wr (memEa f (s.th 1024) scale) (grp i).pc).1 with
     | .at pl => decide (pl.remote s = (gdn, pa))
     | _ => false)

theorem wit_FabricLocal : fabAt (.fld fld) fld rsHere true false 4 0 0x2001000 = true ∧ fabAt (.fst fst) fst rsHere false true 4 0 0x2001000 = true ∧
    fabAt (.fatom fatom) fatom rsHere true true 0 0 0x2001000 = true ∧ (windows (.fld fld) rsHere).fabCheck 0x2001000 4 = none ∧
    (windows (.fst fst) rsHere).inHst 0x2001000 8 = false ∧ signalOf 0x2001000 = none ∧ State.reset.gdn = 0 := by decide +kernel
theorem wit_FabricLocal_flag :
    let s := windows (.fst fstF) rsHere
    fabAt (.fst fstF) fstF rsHere false true 4 0 0x2001000 = true ∧
    Reaches (s.acs 1024 3 2 (memW fstF) false true (memEa fstF (s.th 1024) (memW fstF)) (grp (.fst fstF)).pc).2 1024 3 2 8 true true
      (((s.th 1024).val64 fstF.d).toNat % 2 ^ 56) (grp (.fst fstF)).pc (.loc 0x2001100) ∧ s.fabCheck 0x2001100 8 = none ∧
    s.inHst 0x2001100 8 = false := by decide +kernel
theorem wit_FabricRemote : fabAt (.fld fld) fld rsThere true false 4 5 0x2001000 = true ∧ fabAt (.fst fst) fst rsThere false true 4 5 0x2001000 = true ∧
    fabAt (.fatom fatom) fatom rsThere true true 0 5 0x2001000 = true ∧ (windows (.fld fld) rsThere).outTo 5 < 256 := by decide +kernel
theorem wit_FabricRemote_flag :
    let r := [(2, 0x31000), (4, 7), (8, 0x31100)]
    let s := windows (.fst fstF) r
    fabAt (.fst fstF) fstF r false true 4 5 0x2001000 = true ∧
    (match ((s.acs 1024 3 2 4 false true (memEa fstF (s.th 1024) 4) (grp (.fst fstF)).pc).2.acs 1024 3 2 8 true true
        (((s.th 1024).val64 fstF.d).toNat % 2 ^ 56) (grp (.fst fstF)).pc).1 with
     | .at pl => decide (pl.remote s = (5, 0x2001100))
     | _ => false) = true := by decide +kernel

/-- `MCST` to group 7, without a flag and with one at the pair v8. -/
def mcst : Mem := memAt 3 .vz (.reg 4) 0
def mcstF : Mem := memAt 3 (.reg 8) (.reg 4) 0
/-- The table of multicast groups holds members of group 7: of each its place, its device and a frame at 0x3000000. -/
def mcTable (s : State) (ms : List (Nat × Nat)) : State :=
  ms.foldl (fun s x => withBytes s (0x2000000 + 512 * 7 + 8 * x.1) 8 (2 ^ 63 + 0x300 <<< 20 + x.2)) { s with pkg := { s.pkg with mcbase := 0x2000000 } }
/-- An `MCST` of the one thread passes its checks on the data, and on the flag if it has one. -/
def mcAt (f : Mem) (ms : List (Nat × Nat)) : Bool :=
  let i : Instr := .mcst f
  let s := mcTable (windows i [(2, 0x41000), (4, 7), (8, 0x41100)]) ms
  let x := s.acs 1024 3 3 4 false true (memEa f (s.th 1024) 4) (grp i).pc
  solo i s && decide ((s.th 1024).helper = false ∧ hdrFlag (grp i).hdr f.fs = some 0) &&
  (match x.1 with | .at pl => decide (pl.remote s = (7, 0x1000)) | _ => false) &&
  (f.d == .vz || match (x.2.acs 1024 3 3 8 true true (((s.th 1024).val64 f.d).toNat % 2 ^ 56) (grp i).pc).1 with
    | .at fl => decide (fl.remote s = (7, 0x1100))
    | _ => false)
/-- This device alone is a member; and device 5 of its pod, twice, with one of another pod. -/
theorem wit_MulticastStore : (∀ f ∈ [mcst, mcstF], mcAt f [(3, 0)] = true ∧ mcAt f [(4, 5), (9, 5), (63, 1029)] = true) ∧
    (let s := mcTable (windows (.mcst mcst) [(2, 0x41000), (4, 7), (8, 0x41100)]) [(3, 0)]
     (∀ j, j < 64 → ((s.mcEntry 7 j).1 = true ↔ j = 3)) ∧ s.mcEntry 7 3 = (true, 0x3000000, 0) ∧ s.gdn = 0 ∧ s.pkg.member < 2 ^ 10 ∧
     s.fabCheck 0x3001000 4 = none ∧ s.inHst 0x3001000 4 = false ∧ s.fabCheck 0x3001100 8 = none ∧ s.inHst 0x3001100 8 = false) ∧
    (let s := mcTable (windows (.mcst mcst) [(2, 0x41000), (4, 7), (8, 0x41100)]) [(4, 5), (9, 5), (63, 1029)]
     (∀ m, m < 64 → (s.mcEntry 7 m).1 = true → (s.mcEntry 7 m).2.2 ≠ s.gdn ∧ s.outTo (s.mcEntry 7 m).2.2 + 64 ≤ 256) ∧
     s.mcEntry 7 4 = (true, 0x3000000, 5) ∧ 5 / 2 ^ 10 = s.pkg.pod ∧ s.fab.out.length + 64 ≤ 2 ^ 16) := by decide +kernel

def tld : Mem := ⟨.always, .reg 8, .reg 40, .reg 0, 0, 0, false, 0, false, 0⟩
def tst : Mem := ⟨.always, .reg 0, .reg 40, .reg 8, 0, 0, false, 0, false, 0⟩
/-- The parameter at scratchpad 0 is the tensor's address. -/
def tileState (i : Instr) : State :=
  let s := (demo i).setGr 1 { (demo i).gr 1 with tiles := [tileA], spad := 4096 }
  withBytes s (spadLoc 0 0) 8 0x11000
/-- The places of a lane's elements. -/
def tilePlaces (i : Instr) (f : Mem) (ld : Bool) : List (Nat × Place) :=
  let s := tileState i
  match (s.tileAcs 1024 tileA.esize (s.tileOff 1024 tileA (pcAddr (grp i).pc)) ld (!ld) (grp i).pc
    (elemAddrs (s.tileElems 1024 tileA (pcAddr (grp i).pc) tileA.count (memIter f (s.th 1024))))).1 with
  | .ok ps => ps
  | .error _ => []
/-- The word of a thread names a descriptor whose elements lie in memory, one and more of them. -/
def tileAt (i : Instr) (f : Mem) (ld : Bool) : Bool :=
  let s := tileState i
  match i.core with
  | some (op, b) =>
    solo i s && decide ((s.env (grp i) op b).tile = some tileA) && !(tilePlaces i f ld).isEmpty &&
      isOk (s.tileAcs 1024 tileA.esize (s.tileOff 1024 tileA (pcAddr (grp i).pc)) ld (!ld) (grp i).pc
        (elemAddrs (s.tileElems 1024 tileA (pcAddr (grp i).pc) tileA.count (memIter f (s.th 1024))))).1 (tilePlaces i f ld) &&
      (tilePlaces i f ld).all (fun p => match p.2 with | .loc n => !s.inHst n tileA.esize | _ => false) &&
      decide (s.firstPoison tileA.esize (tilePlaces i f ld) = none) &&
      ((tilePlaces i f ld).zip ((tilePlaces i f ld).drop 1)).all fun p => match p.1.2, p.2.2 with | .loc n, .loc m => decide (n + 2 ≤ m) | _, _ => false
  | none => false
theorem wit_TileWords : tileAt (.tld tld) tld true = true ∧ tileAt (.tst tst) tst false = true ∧ tileA.bits ≠ 4 := by decide +kernel

def pref : Mem := ⟨.always, .reg 0, .reg 2, .reg 0, 0, 0, false, 0, false, 0⟩
def cctl : Mem := ⟨.always, .reg 4, .reg 2, .reg 0, 0, 0, false, 0, false, 0⟩
def fence : Mem := ⟨.always, .reg 0, .reg 0, .reg 0, 0, 0, false, 0, false, 1⟩
def recF : Mem := ⟨.always, .reg 0, .reg 0, .reg 4, 3, 0, false, 0, false, 5⟩
theorem wit_OtherMemoryWords : solo (.pref pref) (demo (.pref pref)) = true ∧
    (solo (.cctl cctl) (demoR (.cctl cctl) rs) = true ∧ hdrFlag (grp (.cctl cctl)).hdr cctl.fs = some 0 ∧
      Reaches (demoR (.cctl cctl) rs) 1024 0 1 1 true false (memEa cctl ((demoR (.cctl cctl) rs).th 1024) 0) (grp (.cctl cctl)).pc (.loc 0x1001000) ∧
      (demoR (.cctl cctl) rs).locks.Nodup) ∧
    (solo (.fence fence) (demo (.fence fence)) = true ∧ (demo (.fence fence)).transfersOf 1024 = false ∧
      ((demo (.fence fence)).th 1024).fabricOut = false ∧ ((demo (.fence fence)).th 1024).errs = []) ∧
    (solo (.recW recF) (demo (.recW recF)) = true ∧ ((demo (.recW recF)).th 1024).helper = false ∧
      (demo (.recW recF)).nodeFill ((demo (.recW recF)).cx ((demo (.recW recF)).cidOf 1024)).dies recF.off.toNat < 64) := by decide +kernel

/-! ### Witnesses: barriers, transfers, tiles -/

/-- The object words of a thread, their object the pair v2. -/
def objW (d b : Opnd) : Xf := ⟨.always, d, .reg 2, b, .reg 0, 0, 0, 0⟩
/-- The object of the witnesses. -/
def obj0 : Obj := { apend := 1, aexp := 2, kind := 0x0B01 }
/-- A state with the object at v2. -/
def objS (i : Instr) : State := let s := demoR i [(2, 0x11000), (4, 1)]; s.putObj 0x1001000 obj0

/-- A word's object is reached, clean, outside the held-state table, initialised, and expects arrivals. -/
def objAt (i : Instr) (f : Xf) (wr : Bool) : Bool :=
  let s := objS i
  solo i s && decide (ObjAt f s (grp i) 1024 wr 0x1001000 ∧ (s.th 1024).helper = false ∧ s.obj 0x1001000 = obj0) && (s.obj 0x1001000).ready

theorem wit_BarrierWords : objAt (.binit (objW (.reg 0) (.reg 4))) (objW (.reg 0) (.reg 4)) true = true ∧
    objAt (.barv (objW (.reg 8) (.reg 0))) (objW (.reg 8) (.reg 0)) true = true ∧
    objAt (.barx (objW (.reg 8) (.reg 4))) (objW (.reg 8) (.reg 4)) true = true ∧
    objAt (.bdrop (objW (.reg 0) (.reg 0))) (objW (.reg 0) (.reg 0)) true = true ∧
    objAt (.bwait (objW (.reg 0) (.reg 4))) (objW (.reg 0) (.reg 4)) false = true ∧
    objAt (.bwait (objW (.reg 0) .vz)) (objW (.reg 0) .vz) false = true ∧
    objAt (.btest (objW (.reg 8) (.reg 4))) (objW (.reg 8) (.reg 4)) false = true := by decide +kernel

/-- `BXC` and `BXS` on channel 1 with template 0, no object, coordinates from v8, scratchpad address v16. -/
def bx : Xf := ⟨.always, .reg 0, .vz, .reg 8, .reg 16, 0, 1, 0⟩
/-- The same with the object at v2. -/
def bxO : Xf := ⟨.always, .reg 0, .reg 2, .reg 8, .reg 16, 0, 1, 0⟩
/-- Template 0 at 0x11100: four elements of 4 bytes at 0x12000, loaded (`DK` 0) or stored (1); the object at 0x11000. -/
def tmplS (i : Instr) (store : Bool) : State :=
  let s := objS i
  let s := (s.setGr 1 { s.gr 1 with spad := 4096 }).modCx 0 fun c => { c with tmplbase := 0x11100 }
  let s := withBytes s 0x1001100 8 0x12000
  let s := withBytes s 0x1001110 8 (2 ^ 63 + store.toNat * 2 ^ 12 + 2 * 2 ^ 4 + 1)
  let s := withBytes s 0x1001140 8 4
  let s := withBytes s 0x1001148 8 4
  withBytes s 0x1001150 8 4
/-- The template read. -/
def tmplOf (i : Instr) (store : Bool) : Tmpl := (tmplS i store).readTmpl 0x1001100
/-- `tmplS` with some transfers queued on channel 1. -/
def queuedS (i : Instr) (store : Bool) (xs : List Xfer) : State := (tmplS i store).modCo 0 fun c => { c with chans := [{}, { xs }, {}, {}] }
/-- What a transfer posts to its object completes no phase: `PostsTo`, decided. -/
def postsTo (s : State) (x : Xfer) : Bool :=
  match x.obj with
  | none => true
  | some (l, va) => decide ((s.obj l).apend ≠ 0 ∧ s.inHst l 32 = false ∧ devLoc l = false ∧ s.objWaits l va x.cid = false ∧
      (s.obj l).bpend + x.tmpl.boxBytes ≤ 2 ^ 39 - 1)
/-- The checks of R277 hold for a transfer word. -/
def startsAt (i : Instr) (f : Xf) (store : Bool) (obj : Option (Nat × Nat)) (xs : List Xfer) : Bool :=
  let s := queuedS i store xs
  match i.core with
  | some (op, b) =>
    let tm := tmplOf i store
    solo i s && isOk (s.tmplAt 1024 (s.cidOf 1024) f.tmpl.toNat (grp i).pc).1 tm &&
      isOk ((s.tmplAt 1024 (s.cidOf 1024) f.tmpl.toNat (grp i).pc).2.xfObj 1024 f (s.env (grp i) op b)).1 obj &&
      decide (tm.reason store = none ∧
        s.xfSpad 1024 (!store && f.mod.getLsbD 3) ((s.th 1024).val f.c).toNat (pcAddr (grp i).pc) = some (spadLoc 0 0, 0, 4096) ∧
        tm.spadOk ((s.th 1024).val f.c).toNat = true ∧ 0 + tm.foot ≤ 4096 ∧ s.postCheck tm obj (f.mod.getLsbD 2) = none ∧
        ((s.co s.turn).chan f.ch.toNat).xs = xs ∧ (s.th 1024).helper = false ∧ tm.boxBytes = 16) &&
      postsTo s (started f store s (grp i) 1024 tm obj (spadLoc 0 0) 0)
  | none => false
/-- A transfer of no object. -/
def plainX : Xfer := started bx false (demo (.bxc bx)) (grp (.bxc bx)) 1024 (tmplOf (.bxc bx) false) none 0 0
/-- A transfer with the object at v2. -/
def objX : Xfer := started bxO false (tmplS (.bxc bxO) false) (grp (.bxc bxO)) 1024 (tmplOf (.bxc bxO) false) (some (0x1001000, 0x11000)) (spadLoc 0 0) 0
/-- A channel with a place, at its bounds, and one with 16 queued. -/
theorem wit_TransferWords : (∀ k ∈ [0, 15, 16], startsAt (.bxc bx) bx false none (List.replicate k plainX) = true ∧
      startsAt (.bxs bx) bx true none (List.replicate k plainX) = true) ∧
    startsAt (.bxc bxO) bxO false (some (0x1001000, 0x11000)) [] = true ∧ startsAt (.bxs bxO) bxO true (some (0x1001000, 0x11000)) [] = true := by
  decide +kernel
/-- A start that waits in its group. -/
theorem wit_TransferWords_waits :
    let g := { grp (.bxc bxO) with waitX := [objX] }
    let s := (tmplS (.bxc bxO) false).modCo 0 fun c => { c with grp := some g }
    s.cur = some g ∧ (Instr.bxc bxO).core.isSome = true ∧ g.members = [1024] ∧ s.resident 1024 = true ∧
    ((s.co s.turn).chan bxO.ch.toNat).xs.length < 16 ∧ postsTo s objX = true := by decide +kernel

/-- `TMPL` of the second 32 bytes of template 0 from v8, `PUB` of v4, `BXCAN` of channel 1. -/
def tmplW : Xf := ⟨.always, .reg 0, .reg 0, .reg 8, .reg 0, 0, 0, 1⟩
def pubW : Xf := ⟨.always, .reg 0, .reg 4, .reg 0, .reg 0, 0, 0, 0⟩
def canW : Xf := ⟨.always, .reg 8, .reg 0, .reg 0, .reg 0, 0, 1, 0⟩
theorem wit_TransferWords_rest :
    (let s := (demo (.tmpl tmplW)).modCx 0 fun c => { c with tmplbase := 0x11100 }
     solo (.tmpl tmplW) s = true ∧
     (s.pageAcs 1024 1 false true (((s.cx (s.cidOf 1024)).tmplbase + 256 * tmplW.tmpl.toNat + 32 * tmplW.mod.toNat) % 2 ^ 56) (grp (.tmpl tmplW)).pc).1 =
       .at (.loc 0x1001120) ∧ s.inHst 0x1001120 32 = false) ∧
    (let s := { demoR (.pub pubW) [(4, 7)] with held := [(5, { st := 4, handle := 7, shadow := 0x3000000, written := [1] })] }
     solo (.pub pubW) s = true ∧ Tbl.wf {} s.held = true) ∧
    (let s := queuedS (.bxcan canW) false [plainX]
     solo (.bxcan canW) s = true ∧ ((s.co s.turn).chan canW.ch.toNat).xs = [plainX] ∧ plainX.obj = none) ∧
    (let s := queuedS (.bxcan canW) false [objX]
     solo (.bxcan canW) s = true ∧ ((s.co s.turn).chan canW.ch.toNat).xs = [objX] ∧ objX.obj = some (0x1001000, 0x11000) ∧
     (s.obj 0x1001000).apend ≠ 0 ∧ s.inHst 0x1001000 32 = false ∧ devLoc 0x1001000 = false ∧ s.objWaits 0x1001000 0x11000 objX.cid = false ∧
     -2 ^ 39 ≤ (s.obj 0x1001000).bpend - (objX.tmpl.e * (objX.tmpl.count - objX.done.length) : Nat)) := by
  decide +kernel

/-- `MMA.e4m3` on j1: D v8, A v16, B v24. -/
def mmaW : Tl := ⟨.always, .reg 8, .reg 16, .reg 24, .reg 8, 1, 4, 0, false⟩
/-- Lane 0 joins j1, alone or with lane 1, which has not signed. -/
def mmaS (members : Nat) : State := (demo (.mma mmaW)).modGg 32 fun g => { g with joins := setAt {} g.joins 1 { decl := true, members } }
theorem wit_MatrixWords : (∀ m ∈ [1, 3], solo (.mma mmaW) (mmaS m) = true ∧ ((mmaS m).th 1024).st = .ready ∧
      hdrFlag (grp (.mma mmaW)).hdr mmaW.fs = some 0 ∧ ((mmaS m).gg 32).join 1 = { decl := true, members := m } ∧
      (mmaS m).roundPc 32 (((mmaS m).gg 32).join 1) = none) ∧
    tidGk 1024 = 32 ∧ maskTids 32 (0 ||| 2 ^ tidLane 1024) = [1024] ∧ eccTraps (mmaS 1) [1024] (mmaRegs mmaW) = [] ∧
    ((mmaS 1).co ((mmaS 1).coreOf (gkTid 32 0))).muRoom = true ∧ ((mmaS 1).th 1024).flag 0 < 63 ∧ ((mmaS 3).th 1024).stepping = false ∧
    ((mmaS 1).th 1024).pend = [] := by
  decide +kernel

/-- `JSET` of j1 to v4, `JCLR` of j1, `CBLD` of slot 3 from v4. -/
def jset : Tl := ⟨.always, .reg 0, .reg 4, .reg 0, .reg 0, 1, 0, 0, false⟩
def jclr : Tl := ⟨.always, .reg 0, .reg 0, .reg 0, .reg 0, 1, 0, 0, false⟩
def cbld : Tl := ⟨.always, .reg 0, .reg 4, .reg 0, .reg 0, 0, 3, 0, false⟩
theorem wit_MatrixWords_rest : solo (.jset jset) (demoR (.jset jset) rs) = true ∧ solo (.jclr jclr) (demo (.jclr jclr)) = true ∧
    solo (.cbld cbld) (demoR (.cbld cbld) rs) = true ∧ tidLane 1024 < 8 ∧ ((demo (.jset jset)).th 1024).st = .ready ∧
    (((demo (.jset jset)).gg 32).join 1).issuing = false := by decide +kernel

/-! ### Witnesses: exceptions -/

/-- A word that is refused at check 4: its source is a reserved encoding. -/
def badAdd : Instr := .iadd ⟨.always, .reg 9, .rsvd 0, .reg 2, .reg 0, .s32, 0, .none⟩
theorem wit_SlotTraps : (demo badAdd).cur = some (grp badAdd) ∧
    slotCauses ((demo badAdd).env (grp badAdd) 0 (.v3 ⟨.always, .reg 9, .rsvd 0, .reg 2, .reg 0, .s32, 0, .none⟩)) =
      [(1024, 0x04, 0x1F5)] ∧ (grp badAdd).members.Nodup ∧ (demo badAdd).resident 1024 = true ∧ ((demo badAdd).th 1024).inh = false := by decide +kernel

theorem wit_SlotTraps_inHandler :
    let s := (demo badAdd).modTh 1024 fun t => { t with inh := true }
    s.cur = some (grp badAdd) ∧
    slotCauses (s.env (grp badAdd) 0 (.v3 ⟨.always, .reg 9, .rsvd 0, .reg 2, .reg 0, .s32, 0, .none⟩)) = [(1024, 0x04, 0x1F5)] ∧
    s.resident 1024 = true ∧ (s.th 1024).inh = true ∧ (s.cx (s.cidOf 1024)).state = 4 ∧ (s.cx (s.cidOf 1024)).dies % 16 ≠ 0 := by decide +kernel

/-- CheckOrder: a word of another class, one of a bad encoding, one of a bad operand, a privileged one at U, and an invalid latch. -/
theorem wit_CheckOrder :
    (let g := grp (.ld ld)
     ¬((opSet 0xE2).admitted (hdrCls g.hdr) = true)) ∧
    (let b : Body := .v3 ⟨.always, .reg 9, .reg 1, .reg 2, .reg 0, .f32, 0, .none⟩
     (opSet 0).admitted (hdrCls (grp badAdd).hdr) = true ∧ ¬((grp badAdd).slot = hdrLen (grp badAdd).hdr ∧ hdrBr (grp badAdd).hdr = true) ∧ b.encOk 0 = false) ∧
    (let b : Body := .v3 ⟨.always, .reg 9, .rsvd 0, .reg 2, .reg 0, .s32, 0, .none⟩
     b.encOk 0 = true ∧ b.badOpnd ((demo badAdd).gridOf 1024).regs 0 = some (1, .rsvd 0)) ∧
    (let b : Body := .v3 ⟨.always, .reg 9, .kreg 0, .reg 2, .reg 0, .z32, 0, .none⟩
     b.encOk 0x22 = false ∧ (Body.v3 ⟨.always, .reg 9, .kreg 0, .reg 0, .reg 0, .z32, 0, .none⟩).encOk 0x22 = true ∧
     ((({ lvl := .u } : Thr).lvl.num < (Body.v3 ⟨.always, .reg 9, .kreg 0, .reg 0, .reg 0, .z32, 0, .none⟩).level 0x22))) := by decide +kernel

theorem wit_GuardedOff_fullFlag :
    let s := (demoR (.ld ld) rs).modTh 1024 fun t => { t with flags := setAt 0 t.flags 0 63 }
    s.cur = some (grp (.ld ld)) ∧ slotCauses (s.env (grp (.ld ld)) 0x90 (.mem ld)) = [] ∧ (s.env (grp (.ld ld)) 0x90 (.mem ld)).flagFull = true := by
  decide +kernel

/-- The thread of a state is a helper. -/
def helperS (s : State) : State := s.modTh 1024 fun t => { t with helper := true }
/-- HelperWords: each memory and object word, whose address in `demo` has no page, so that a load fails; a tile word; an object at v2; `STEP`. -/
theorem wit_HelperWords :
    ((memoryWords ++ transferWords).all fun x => solo x.2 (helperS (demo x.2)) && (((helperS (demo x.2)).th 1024).helper)) = true ∧
    (memoryWords.all fun x => decide (hdrFlag (grp x.2).hdr false = some 0)) = true ∧
    (match ((helperS (demo (.ld ld))).acs 1024 0 1 4 true false 0 (grp (.ld ld)).pc).1 with | .at _ => false | _ => true) = true ∧
    ((helperS (tileState (.tst tst))).env (grp (.tst tst)) 0x99 (.mem tst)).tile = some tileA ∧
    (let f := objW (.reg 4) (.reg 0)
     let s := helperS (demoR (.barv f) rs)
     Reaches s 1024 f.bsp 1 32 true false (xfAddr f (s.th 1024)) (grp (.barv f)).pc (.loc 0x1001000)) ∧
    solo (.step ⟨.always, .reg 0, .reg 36, 0⟩) (helperS (demo (.step ⟨.always, .reg 0, .reg 36, 0⟩))) = true := by decide +kernel

/-! ### Witnesses: control, system and power words -/

/-- `BRX` and `RET` of the pair v2. -/
def jmp : V3 := ⟨.always, .reg 0, .reg 2, .reg 0, .reg 0, .z64, 0, .none⟩
def sleepW (imm : BitVec 24) : I24 := ⟨.always, .reg 0, .reg 4, .z32, 0, imm⟩
/-- ControlWords: `wit_issues` has each word; the bounds of the jump addresses and of the delays of `SLEEP`, and both traps. -/
theorem wit_ControlWords : (∀ a ∈ [0, 2 ^ 24 - 1], solo (.brx jmp) (demoR (.brx jmp) [(2, 2 ^ 32 - 8), (3, a)]) = true ∧
      ((((demoR (.brx jmp) [(2, 2 ^ 32 - 8), (3, a)]).th 1024).val64 jmp.a).toNat < 2 ^ 56) ∧
      (((demoR (.brx jmp) [(2, 2 ^ 32 - 8), (3, a)]).th 1024).val64 jmp.a).toNat % 8 = 0) ∧
    (solo (.ret jmp) (demoR (.ret jmp) [(3, 2 ^ 24)]) = true ∧ 2 ^ 56 ≤ (((demoR (.ret jmp) [(3, 2 ^ 24)]).th 1024).val64 jmp.a).toNat) ∧
    (solo (.ret jmp) (demoR (.ret jmp) [(2, 4)]) = true ∧ (((demoR (.ret jmp) [(2, 4)]).th 1024).val64 jmp.a).toNat % 8 ≠ 0 ∧
      ((demoR (.ret jmp) [(2, 4)]).th 1024).inh = false) ∧
    (solo (.sleep (sleepW (-7))) (demoR (.sleep (sleepW (-7))) [(4, 7)]) = true ∧ solo (.sleep (sleepW (-6))) (demoR (.sleep (sleepW (-6))) [(4, 7)]) = true ∧
      ((demo (.sleep (sleepW 0))).th 1024).stepping = false) ∧
    solo (.nop ⟨.always, .reg 0, .reg 0, 0⟩) (demo (.nop ⟨.always, .reg 0, .reg 0, 0⟩)) = true := by decide +kernel

def exitW : Sy := ⟨.always, .reg 0, .reg 0, 0⟩
/-- A context with a trace buffer at 0x11000 whose header has `EN` and bit 3. -/
def traced (i : Instr) : State :=
  let s := (demo i).modCx 0 fun c => { c with tracebase := 0x11000 }
  withBytes { s with tlb := s.tlb ++ s.tlb.map fun e => { e with loc := 320 } } 0x1001008 8 9
theorem wit_EndAndTrapWords : solo (.exit exitW) (demo (.exit exitW)) = true ∧ ((demo (.exit exitW)).th 1024).errs = [] ∧
    ((demo (.exit exitW)).gg (tidGk 1024)).joins = [{}, {}, {}, {}, {}, {}, {}, {}] ∧
    solo (.trap exitW) (demo (.trap exitW)) = true ∧ solo (.bkpt exitW) (demo (.bkpt exitW)) = true ∧ ((demo (.bkpt exitW)).th 1024).inh = false ∧
    Solo (.bkpt exitW) (traced (.bkpt exitW)) (grp (.bkpt exitW)) 0xD9 (.sy exitW) 1024 ∧
    (traced (.bkpt exitW)).traceCtl ((traced (.bkpt exitW)).cidOf 1024) = some 9 ∧ (9 : Nat).testBit 3 = true := by decide +kernel

theorem wit_MarkWords : solo (.step ⟨.always, .reg 0, .reg 36, 0⟩) (demo (.step ⟨.always, .reg 0, .reg 36, 0⟩)) = true ∧
    ((demo (.step ⟨.always, .reg 0, .reg 36, 0⟩)).th 1024).helper = false ∧
    solo (.tracew ⟨.always, .reg 0, .reg 4, .reg 6, .reg 0, .z32, 0, .none⟩) (demo (.tracew ⟨.always, .reg 0, .reg 4, .reg 6, .reg 0, .z32, 0, .none⟩)) = true := by
  decide +kernel

/-- ReadingWords: the words at each selector of `S2V` and `TSR` that the statement values, and of `TOKQ`. -/
theorem wit_ReadingWords :
    ([0x00, 0x01, 0x02, 0x03, 0x04, 0x08, 0x10, 0x18, 0x20, 0x22, 0x31, 0x32, 0x80, 0x82, 0x83, 0x84, 0x85].all fun k =>
      solo (.s2v ⟨.always, .reg 8, .reg 0, k⟩) (demo (.s2v ⟨.always, .reg 8, .reg 0, k⟩))) = true ∧
    ([0x10, 0x17].all fun k => solo (.tsr ⟨.always, .reg 8, .reg 0, k⟩) (demo (.tsr ⟨.always, .reg 8, .reg 0, k⟩))) = true ∧
    ([0, 2, 4, 8].all fun k => solo (.tokq ⟨.always, .reg 8, .reg 0, k⟩) (demo (.tokq ⟨.always, .reg 8, .reg 0, k⟩))) = true := by decide +kernel

theorem wit_TrapStateWords :
    ([0x80, 0x81, 0x82, 0x83].all fun k => solo (.v2s ⟨.always, .reg 0, .reg 8, k⟩) (demo (.v2s ⟨.always, .reg 0, .reg 8, k⟩))) = true ∧
    (solo (.rft exitW) (demo (.rft exitW)) = true ∧ ((demo (.rft exitW)).th 1024).pp < 2 ∧ ((demo (.rft exitW)).th 1024).stepping = false) ∧
    (let s := (demo (.rft exitW)).modTh 1024 fun t => { t with pp := 2 }
     solo (.rft exitW) s = true ∧ 2 ≤ (s.th 1024).pp ∧ (s.th 1024).inh = false) ∧
    solo (.kswap ⟨.always, .reg 8, .kreg 3, .reg 0, .reg 0, .z32, 0, .none⟩) (demo (.kswap ⟨.always, .reg 8, .kreg 3, .reg 0, .reg 0, .z32, 0, .none⟩)) = true := by
  decide +kernel

def halt (sel : BitVec 16) : Sy := ⟨.always, .reg 0, if sel < 2 then .reg 4 else .vz, sel⟩
/-- A second thread of the block, in some state. -/
def two (i : Instr) (st : TSt) : State := (demo i).setTh 1025 { st, regs := List.replicate 240 0 }
theorem wit_ThreadStateWords :
    ([0, 1, 3, 0x10, 0x17, 0x100, 0x17F].all fun k => solo (.tsw ⟨.always, .reg 0, .reg 8, k⟩) (demo (.tsw ⟨.always, .reg 0, .reg 8, k⟩))) = true ∧
    ((demo (.tsw ⟨.always, .reg 0, .reg 8, 0⟩)).th 1024).st = .ready ∧
    (((demo (.tsw ⟨.always, .reg 0, .reg 8, 0x10⟩)).gg (tidGk 1024)).join 0).issuing = false ∧
    (∀ m ∈ [(0 : BitVec 4), 1, 2], solo (.tlbi ⟨.always, .reg 0, if m = 0 then .reg 2 else .reg 0, .reg 0, .reg 0, .s32, m, .none⟩)
      (demo (.tlbi ⟨.always, .reg 0, if m = 0 then .reg 2 else .reg 0, .reg 0, .reg 0, .s32, m, .none⟩)) = true) := by decide +kernel

/-- A word's one thread issues it beside a second thread in some state. -/
def haltAt (k : BitVec 16) (st : TSt) : Bool :=
  let s := two (.haltg (halt k)) st
  solo (.haltg (halt k)) s && Tbl.wf {} s.thr && decide ((s.th 1025).st = st ∧ (s.th 1025).inh = false ∧ s.inGroup 1025 = false)
theorem wit_ThreadStateWords_halt : haltAt 0 .ready = true ∧ haltAt 1 .entering = true ∧ haltAt 2 .blocked = true ∧ haltAt 4 .stalled = true ∧
    haltAt 6 .halted = true ∧ haltAt 3 .exited = true := by decide +kernel

/-- The named threads of a `HALTG`, by scope: of the gang, the block, the grid and the context. -/
theorem wit_ThreadStateWords_names : haltNames (two (.haltg (halt 0)) .ready) 1024 0 2 1025 ∧ haltNames (two (.haltg (halt 2)) .ready) 1024 1 0 1025 ∧
    haltNames (two (.haltg (halt 4)) .ready) 1024 2 0 1025 ∧ haltNames (two (.haltg (halt 6)) .ready) 1024 3 0 1025 := by
  refine ⟨⟨?_, ?_, ?_⟩, ⟨?_, ?_, ?_⟩, ⟨?_, ?_, ?_⟩, ⟨?_, ?_, ?_⟩⟩ <;>
    first | decide +kernel | (show _ ∧ _; decide +kernel) | (show _ = _; decide +kernel)

def intent : V3 := ⟨.always, .reg 8, .reg 4, .reg 6, .reg 0, .z32, 0, .none⟩
theorem wit_PowerWords_intent : solo (.intent intent) (demo (.intent intent)) = true ∧ ((demo (.intent intent)).th 1024).val intent.b = 0 ∧
    (let s := demoR (.intent intent) rs
     solo (.intent intent) s = true ∧ (s.th 1024).val intent.b ≠ 0 ∧ ownIntents s = 0) ∧
    (let s := demoR (.intent intent) rs
     let s := { s with pow := { s.pow with intents := List.replicate 16 { n := 1, d := 1, rate := 1, cls := 0, own := true, adm := false, n0 := 1, rank := 0 } } }
     solo (.intent intent) s = true ∧ 16 ≤ ownIntents s) := by decide +kernel

def ballast (m : BitVec 4) : V3 := ⟨.always, .reg 8, .reg 2, .reg 4, .reg 0, .s32, m, .none⟩
def ballastC : V3 := ⟨.always, .reg 8, .reg 0, .reg 0, .reg 0, .s32, 1, .none⟩
theorem wit_PowerWords_ballast : solo (.ballast (ballast 0)) (demo (.ballast (ballast 0))) = true ∧
    solo (.ballast (ballast 0)) (demoR (.ballast (ballast 0)) rs) = true ∧ ((demoR (.ballast (ballast 0)) rs).th 1024).val (.reg 4) ≠ 0 ∧
    solo (.ballast (ballast 2)) (demoR (.ballast (ballast 2)) rs) = true ∧ solo (.ballast ballastC) (demo (.ballast ballastC)) = true := by decide +kernel

/-! ### Witnesses: Truss words -/

/-- One translation held in the shared TLB of die 0. -/
def shared (s : State) (va pte : Nat) : State := { s with tlb := { loc := 320, asid := 0, va, pte := .ofNat 64 pte } :: s.tlb }

/-- A running device of which slot 2, on engine 0, has some contents; the TLB of die 0 holds a page of memory at 0x10000, of frame
0x1000000, a window page of device 5 at 0x30000, and a multicast page of group 7 at 0x40000. -/
def slotS (x : TSlot) : State :=
  shared (shared (shared { State.reset with mg := { boot := .running }, ctx := [(0, { state := 4, dies := 15 })], slot := [(2, x)] } 0x10000
    (1 + 2 + 32 + 64 + 0x1000000)) 0x30000 (1 + 4 + 32 + 64 + 5 <<< 8 + 0x200 <<< 28)) 0x40000 (1 + 6 + 64 + 7 <<< 8)

/-- Rank 1 of four: rank 0 is in another pod, rank 2 is slot 3 of this device, rank 3 is slot 9 of device 5; chunks 0 and 1 are local pieces of 4
bytes, 2 a window of rank 3, 3 the group's. -/
def slot0 : TSlot :=
  { st := 4, rank := 1, size := 4, comm := [(1, 1024, 0), (2, 0, 0), (3, 0, 0), (9, 5, 0)], pc := 2,
    chunks := [(0, { v := true, base := 0x11000, size := 4, stride := 4 }), (1, { v := true, base := 0x12000, size := 4, stride := 4 }),
               (2, { v := true, win := true, base := 0x31000, size := 4, stride := 4 }), (3, { v := true, win := true, base := 0x41000, size := 4, stride := 4 })],
    g := [0, 1, 2, 3, 7, 0, 0, 0, 0, 0, 0, 0, 0, 0, 0, 0] }

theorem wit_TrussRegisterWords : TrussAt (slotS slot0) 2 slot0 ∧ 0 < slot0.size ∧ slot0.size < 2 ^ 64 := by decide +kernel
theorem wit_TrussControlWords : TrussAt (slotS slot0) 2 slot0 ∧ ((0 : Nat) : Int) = slot0.pc + (-2 : BitVec 48).toInt ∧
    (let s := { slotS slot0 with agenda := [.engine 0] }
     TrussAt s 2 slot0 ∧ s.agenda = .engine s.eturn :: [] ∧ s.mg.boot = .running ∧ slot0.words.length ≤ slot0.pc) := by decide +kernel

/-- `SIG s2, g<a>, 1`. -/
def sig (a : BitVec 4) : TB := ⟨2, a, 1⟩
/-- The slot of rank 2. -/
def mate : TSlot := { st := 2, rank := 2, size := 4, comm := [(1, 1024, 0), (2, 0, 0)] }
theorem wit_TrussSignalWords : slot0.todo = [] ∧
    ((slot0.gr 0).toNat < slot0.size ∧ (slot0.peer 0).2.1 / 2 ^ 10 ≠ (slotS slot0).pkg.pod) ∧
    ((slot0.gr 3).toNat = 3 ∧ (slot0.peer 3).2.1 / 2 ^ 10 = (slotS slot0).pkg.pod ∧ (slot0.peer 3).2.1 ≠ (slotS slot0).gdn ∧
      (slotS slot0).outTo (slot0.peer 3).2.1 < 256) ∧
    (let s := { slotS slot0 with slot := [(2, slot0), (3, mate)] }
     TrussAt s 2 slot0 ∧ (slot0.gr 2).toNat = 2 ∧ (slot0.peer 2).2.1 = s.gdn ∧ s.pkg.member < 2 ^ 10 ∧ (slot0.peer 2).1 < 64 ∧ (slot0.peer 2).1 ≠ 2 ∧
     2 ≤ (s.sl (slot0.peer 2).1).st ∧ (s.sl (slot0.peer 2).1).st ≠ 7 ∧ ((s.sl (slot0.peer 2).1).comm.any fun c => c.2.1 == s.gdn) = true) ∧
    (1 ≤ (sig 0).imm.toInt ∧ (sig 0).imm.toInt < 4294967296) ∧ ([(0 : BitVec 48), 0x100000000, -1].all fun x => decide (x.toInt < 1 ∨ 4294967296 ≤ x.toInt)) = true ∧
    slot0.size ≤ (slot0.gr 4).toNat := by decide +kernel
/-- `WAIT` with and without its count, and `BAR` in communicators of one and of two whose next rank is in another pod. -/
theorem wit_TrussSignalWords_wait :
    (let x := { slot0 with sig := [0, 0, 5, 0, 0, 0, 0, 0, 0, 0, 0, 0, 0, 0, 0, 8] }
     TrussAt (slotS x) 2 x ∧ 5 ≤ x.sig.getD 2 0 ∧ x.sig.getD 2 0 < 6) ∧
    (let x := { slot0 with rank := 0, size := 1, comm := [(2, 0, 0)] }
     TrussAt (slotS x) 2 x ∧ x.size = 1) ∧
    (let x := { slot0 with size := 2, comm := [(1, 1024, 0), (2, 0, 0)] }
     TrussAt (slotS x) 2 x ∧ 1 < x.size ∧ x.size ≤ 1024 ∧ x.sig.getD 15 0 % 8 = 0 ∧ (x.peer ((x.rank + 1) % x.size)).2.1 / 2 ^ 10 ≠ (slotS x).pkg.pod) := by
  decide +kernel

/-- What `PieceAt` says, decided. -/
def pieceAt (s : State) (x : TSlot) (e va n loc : Nat) (rd wr : Bool) : Bool :=
  !s.inHst loc (n * e) && (List.range n).all fun k =>
    match s.engAcs x.cid x.die ((va + k * e) % 2 ^ 56) rd wr with
    | (.ok y p, t) => decide (p = .loc (loc + k * e) ∧ t = s ∧ y.held.st ≠ 4) && (!rd || !s.poisoned (loc + k * e) e)
    | _ => false
theorem pieceAt_spec {s : State} {x : TSlot} {e va n loc : Nat} {rd wr : Bool} (h : pieceAt s x e va n loc rd wr = true) :
    PieceAt s x e va n loc rd wr := by
  simp only [pieceAt, Bool.and_eq_true, Bool.not_eq_true', List.all_eq_true, List.mem_range] at h
  refine ⟨h.1, fun k hk => ?_⟩
  have h2 := h.2 k hk
  split at h2
  · next y p t he =>
    simp only [Bool.and_eq_true, decide_eq_true_eq, Bool.or_eq_true, Bool.not_eq_true'] at h2
    obtain ⟨⟨rfl, rfl, h3⟩, h4⟩ := h2
    exact ⟨y, he, fun _ => h3, fun hr => by simpa [hr] using h4⟩
  · cases h2

/-- Chunks 0 and 1, elements of e bytes, at pieces 0. -/
def dataW (cb : BitVec 6) (rp : BitVec 4) : TC := { ca := 0, cb, ra := 0, rb := 0, rp, xf := 0, xo := 0, sg := 3 }
theorem wit_TrussDataWords_pieces : ∀ e ∈ [1, 2], PiecesAt (slotS slot0) slot0 (dataW 1 0) e 0x1001000 0x1002000 true := by
  intro e he
  have hf : chunkFits slot0 0 e false ∧ chunkFits slot0 1 e false := by
    simp only [List.mem_cons, List.not_mem_nil, or_false] at he
    rcases he with rfl | rfl <;> unfold chunkFits <;> decide +kernel
  have hp : ∀ e ∈ [1, 2], pieceAt (slotS slot0) slot0 e 0x11000 (4 / e) 0x1001000 true false = true ∧
      pieceAt (slotS slot0) slot0 e 0x12000 (4 / e) 0x1002000 false true = true ∧
      pieceAt (slotS slot0) slot0 e 0x12000 (4 / e) 0x1002000 true false = true := by decide +kernel
  exact ⟨⟨hf.1, hf.2, rfl⟩, pieceAt_spec (hp e he).1, pieceAt_spec (hp e he).2.1, fun _ => pieceAt_spec (hp e he).2.2⟩
theorem wit_TrussDataWords : slot0.todo = [] ∧ TrussAt (slotS slot0) 2 slot0 ∧
    -- SEND: the window chunk 2, ranks 0 (another pod) and 3; REDSEND's window is chunk 2, after CB = 1
    chunkFits slot0 2 1 true ∧ chunkFits slot0 2 2 true ∧ (slot0.chunk 0).size = (slot0.chunk 2).size ∧ (slot0.gr (dataW 2 0).rp).toNat = 0 ∧
    (slot0.gr (dataW 2 3).rp).toNat = 3 ∧ (slot0.peer 0).2.1 / 2 ^ 10 ≠ (slotS slot0).pkg.pod ∧ (slot0.peer 3).2.1 / 2 ^ 10 = (slotS slot0).pkg.pod ∧
    pieceVa slot0 2 0 % 4096 + (slot0.chunk 0).size ≤ 4096 ∧ (slotS slot0).outTo 5 < 255 ∧ (slotS slot0).fab.out.length + 2 ≤ 2 ^ 16 ∧
    isOk ((slotS slot0).tWindow 0 0 (pieceVa slot0 2 0) 5 false true).1 0x2001000 = true ∧
    ((slotS slot0).tWindow 0 0 (pieceVa slot0 2 0) 5 false true).2 = slotS slot0 ∧
    -- an invalid chunk, and a rank that is none
    (slot0.chunk 9).v = false ∧ slot0.size ≤ (slot0.gr 4).toNat := by unfold chunkFits; decide +kernel
/-- RECV has its window as CA and its local chunk as CB, of rank 0. -/
theorem wit_TrussDataWords_recv : chunkFits slot0 2 1 true ∧ chunkFits slot0 1 1 false ∧ (slot0.chunk 2).size = (slot0.chunk 1).size ∧
    pieceAt (slotS slot0) slot0 1 0x12000 4 0x1002000 false true = true ∧ pieceVa slot0 1 0 = 0x12000 := by unfold chunkFits; decide +kernel
/-- RECV and REDSEND with rank 3, in the pod. -/
theorem wit_TrussDataWords_pod :
    isOk ((slotS slot0).tWindow 0 0 (pieceVa slot0 2 0) 5 true false).1 0x2001000 = true ∧
    ((slotS slot0).tWindow 0 0 (pieceVa slot0 2 0) 5 true false).2 = slotS slot0 ∧ pieceVa slot0 2 0 % 4 = 0 ∧ pieceVa slot0 1 0 % 4 = 0 ∧
    (slotS slot0).outTo 5 < 255 ∧ (dataW 1 3).cb.toNat < 63 ∧ ((dataW 1 3).cb.toNat + 1 = 2) ∧ (slot0.gr (dataW 1 3).rp).toNat = 3 := by decide +kernel
/-- MCAST to group 7, whose one member is device 5, rank 3. -/
def groupS : State :=
  let s := slotS { slot0 with g := [7, 0, 0, 0, 0, 0, 0, 0, 0, 0, 0, 0, 0, 0, 0, 0] }
  withBytes { s with pkg := { s.pkg with mcbase := 0x2000000 } } (0x2000000 + 512 * 7 + 8 * 4) 8 (2 ^ 63 + 0x300 <<< 20 + 5)
theorem wit_TrussDataWords_mcast : chunkFits slot0 0 1 false ∧ chunkFits slot0 3 1 true ∧ (slot0.chunk 0).size = (slot0.chunk 3).size ∧
    (slot0.chunk 0).size ∈ [1, 2, 4, 8, 16] ∧ groupS.mcMembers 7 = [(4, 0x3000000, 5)] ∧ slot0.rankOf 5 = some 3 ∧ groupS.gdn = 0 ∧
    pieceVa slot0 3 0 % 4 = 0 ∧ isOk (groupS.tMulti 0 0 (pieceVa slot0 3 0) 7).1 0x1000 = true ∧ (groupS.tMulti 0 0 (pieceVa slot0 3 0) 7).2 = groupS := by
  unfold chunkFits; decide +kernel

/-- MCAST to group 7, which has no member. -/
theorem wit_TrussDataWords_alone :
    let x := { slot0 with g := [7, 0, 0, 0, 0, 0, 0, 0, 0, 0, 0, 0, 0, 0, 0, 0] }
    (slotS x).mcMembers 7 = [] ∧ (x.gr 0).toNat = 7 ∧ isOk ((slotS x).tMulti 0 0 (pieceVa x 3 0) 7).1 0x1000 = true ∧
    ((slotS x).tMulti 0 0 (pieceVa x 3 0) 7).2 = slotS x ∧ TrussAt (slotS x) 2 x ∧ pieceAt (slotS x) x 1 0x11000 4 0x1001000 true false = true := by
  decide +kernel

/-! ### Witnesses: contexts and threads -/

/-- A running device with one context in a state, of a page of memory at 0x10000, frame 0x1000000, that the TLBs of core 0 and of die 0 hold; the
access in hand is a hypervisor's, on context 0. -/
def ctxS (c : Ctx) : State :=
  let e (loc : Nat) : TlbE := { loc, asid := 0, va := 0x10000, pte := .ofNat 64 (1 + 2 + 32 + 64 + 128 + 0x1000000) }
  { State.reset with
    mg := { boot := .running }, ctx := [(0, c)], tlb := [e 0, e 320], acc := { who := .hart 1 .hs, idx := 256, val := 0 }, time := 1000000 }

/-- ContextCommands: the command bits, and each state of the context. -/
theorem wit_ContextCommands : CommandAt (ctxS {}) 0 ∧ ((ctxS { cbusy := true }).cx 0).cbusy = true ∧
    ([0, 1, 2, 3, 4, 5, 6, 7, 8].all fun st => decide (CommandAt (ctxS { state := st }) 0 ∧ ((ctxS { state := st }).cx 0).cbusy = false ∧
      ((ctxS { state := st }).cx 0).state = st)) = true ∧
    (let s := { ctxS {} with acc := { who := .hart 1 .vs, idx := 0, val := 0 } }
     whoGuest s.acc.who = true) := by decide +kernel

/-- The page at 0x10000 is Pinned. -/
def pinS (c : Ctx) : State := { ctxS c with held := [(heldKey 0 0x10000, { st := 2, pte := .ofNat 64 (1 + 2 + 32 + 64 + 0x1000000) })] }
/-- A context that passes the first four checks of `BIND`. -/
def ready : Ctx := { state := 1, dies := 15, v := true, himg := 0x10000, savebase := 0x10000, savelen := 0x10000, tmplbase := 0x100, tracebase := 0, faultq := 64 }
theorem wit_BindAndDestroy_bind :
    (∀ c ∈ [{ ready with dies := 3 }, { ready with v := false }, { ready with himg := 0x10800 }, { ready with savelen := 0x10001 }, ready],
      CommandAt (pinS c) 0 ∧ (pinS c).cx 0 = c ∧ c.cbusy = false ∧ c.state = 1) ∧
    (3 ∉ layoutOf (pinS ready).pkg.pmode ∧ 15 ∈ layoutOf (pinS ready).pkg.pmode) ∧
    (let s := { pinS ready with ctx := [(0, ready), (1, { ready with state := 2, root := 1 })] }
     (1 : Nat) ≠ 0 ∧ 2 ≤ (s.cx 1).state ∧ (s.cx 1).asid = ready.asid ∧ (s.cx 1).root ≠ ready.root) ∧
    (pinS ready).asidOk 0 ready = true ∧ ({ ready with himg := 0x10800 } : Ctx).himg % 4096 ≠ 0 ∧
    (ready.himg % 4096 = 0 ∧ ready.savebase % 4096 = 0 ∧ ready.tmplbase % 256 = 0 ∧ ready.tracebase % 4096 = 0 ∧ ready.faultq % 64 = 0) ∧
    (pinS { ready with savelen := 0x10001 }).bindPins 0 { ready with savelen := 0x10001 } = false ∧ (pinS ready).bindPins 0 ready = true ∧
    (pinS ready).imageHdr 0 ready.himg = some (0, 0, 0, 0) := by decide +kernel
theorem wit_BindAndDestroy : (CommandAt (ctxS { state := 2 }) 0) ∧ (ctxS { state := 8 }).hasRequest 0 = false ∧
    ((ctxS { state := 5, dies := 15, ptmo := 0 }).cx 0).ptmoAt + max 1 0 * 10000 ≤ (ctxS { state := 5, dies := 15, ptmo := 0 }).time := by decide +kernel

/-- A context with one grid of two blocks of one thread and no queue of its own, on an awake core cluster 0. -/
def gridS (c : Ctx) : State :=
  { ctxS c with grid := [(1, { live := true, gx := 2, spad := 64, entry := 0x10000, num := 7 })], ccl := [(0, { awake := true })], blkCtr := 5 }
theorem wit_ContextSchedule_first :
    let s := gridS { state := 3, dies := 15 }
    s.ctxOn 15 (fun st => st == 4 || st == 5) = none ∧ s.chosen 15 = some 0 ∧ (s.cx 0).dies = 15 ∧ (s.cx 0).state = 3 ∧
    (match s.nextGrid 0 with | some (g, s1) => decide (g = 1 ∧ s1.pickCores (s.gr 1) = some [0]) | none => false) = true ∧ (s.gr 1).cid = 0 := by
  decide +kernel
theorem wit_ContextSchedule_next :
    let s := gridS { state := 4, dies := 15 }
    s.ctxOn 15 (fun st => st == 4 || st == 5) = some 0 ∧ (s.cx 0).dies = 15 ∧ (s.cx 0).state = 4 ∧
    (match s.nextGrid 0 with | some (g, s1) => decide (g = 1 ∧ s1.pickCores (s.gr 1) = some [0]) | none => false) = true ∧ (s.gr 1).cid = 0 := by
  decide +kernel
/-- Context 1 runs, at the same or a lower priority; its slice of 1 µs is over. -/
def twoS (prio : Nat) : State :=
  let s := gridS { state := 3, dies := 15, prio }
  { s with ctx := [(0, { state := 3, dies := 15, prio }), (1, { state := 4, dies := 15, slice := 1, asid := 1 })] }
theorem wit_ContextSchedule_demand :
    (∀ p ∈ [0, 1], (twoS p).ctxOn 15 (fun st => st == 4 || st == 5) = some 1 ∧ (twoS p).chosen 15 = some 0 ∧ ((twoS p).cx 1).state = 4) ∧
    ((twoS 1).cx 1).prio < ((twoS 1).cx 0).prio ∧ ((twoS 0).cx 0).prio = ((twoS 0).cx 1).prio ∧
    ((twoS 0).cx 1).slice ≠ 0 ∧ ((twoS 0).cx 1).sliceAt + ((twoS 0).cx 1).slice * 1000 ≤ (twoS 0).time ∧
    (ctxS { state := 4, dies := 15, slice := 1 }).chosen 15 = none := by decide +kernel

/-- A context that is being pre-empted, with one block of one thread that its handler has saved, and a save area at 0x10000. -/
def saveS (len : Nat) : State :=
  let s := gridS { state := 5, dies := 15, savebase := 0x10000, savelen := len }
  { s with blk := [(2, { live := true, gid := 1, peers := [2] })], thr := [(2048, { st := .ready, inh := true, tcode := 0x16, save := .done, regs := [0, 0, 0, 0, 0, 0, 0, 0] })] }
theorem wit_SaveAndRestore_save : (saveS 4096).saveReady 0 = true ∧ (saveS 4096).savedGrids 0 = [1] ∧
    256 + 64 * ((saveS 4096).savedGrids 0).length + (((saveS 4096).blocksOf 0).map fun x => ((saveS 4096).gr x.2.gid).recLen).sum = 1472 ∧
    (savedTo (saveS 1472) 0).isSome = true ∧ savedTo { saveS 1472 with tlb := [] } 0 = none ∧ (saveS 1471).saveReady 0 = true := by decide +kernel
/-- The image of no block, and of one block of grid 7. -/
def savedS (n : Nat) : State :=
  let s := gridS { state := 6, dies := 15, savebase := 0x10000, savelen := 4096, image := true }
  withBytes (withBytes (withBytes (withBytes s 0x1000010 8 (n * 2 ^ 32 + n)) 0x1000100 8 7) (0x1000140 + 24) 8 (1 + 256)) (0x1000140 + 32) 16 (8 + 2 ^ 64 * 1088)
theorem wit_SaveAndRestore_restore : (∀ n ∈ [0, 1], (savedS n).ctxOn 15 (fun st => st == 4 || st == 5) = none ∧ (savedS n).chosen 15 = some 0 ∧
    (match (savedS n).readSave 0 with | some bs => decide (bs.length = n) && ((savedS n).putAll 0 bs.length bs).isSome | none => false) = true) := by
  decide +kernel

/-- One thread of a grid, in a state. -/
def thrS (x : Thr) : State :=
  { gridS { state := 4, dies := 15 } with blk := [(2, { live := true, gid := 1, peers := [2] })], thr := [(2048, x)] }
theorem wit_ThreadEvents :
    (∀ k ∈ ({ st := .entering } : Thr).flags, k = 0) ∧ (thrS { st := .ready, halt := some false }).haltReady 2048 = true ∧
    (thrS { st := .blocked, halt := some true }).haltReady 2048 = true ∧ (thrS { st := .halted, preempt := some 2 }).resident 2048 = true ∧
    (thrS { st := .halted, preempt := some 2 }).preemptReady 2048 = true ∧
    ((thrS { st := .blocked, wait := .sleep 1000000 8 }).th 2048).wait = .sleep (thrS {}).time 8 := by decide +kernel

/-! ### Witnesses: queues, resets, packets -/

/-- A device with one context, and queue 1 in its descriptor at 0x3000040, its ring of four slots at 0x10000. -/
def unmapQ (c : Ctx) (h : QHeld) : State :=
  let s := ctxS c
  let s := { s with pkg := { s.pkg with qdbase := 0x3000000 } }
  (withBytes s 0x3000040 8 (2 * 2 ^ 56 + 0x10000)).qput 1 h
/-- The same queue mapped on thread 0 of die 0. -/
def mapQ (c : Ctx) (h : QHeld) : State := unmapQ c { h with mapped := true }
theorem wit_QueueCommands :
    (∀ st ∈ [2, 6], (unmapQ { state := st } {}).disabling 1 = false ∧ (unmapQ { state := st } {}).qv 1 = {} ∧
      DescFree (unmapQ { state := st } {}) 1) ∧
    (unmapQ { state := 1 } { qst := 1 }).qv 1 = { qst := 1 } ∧ (unmapQ {} { qst := 5 }).qv 1 = { qst := 5 } ∧
    (∀ k ∈ [2, 3, 4], (mapQ {} { qst := k }).qv 1 = { mapped := true, qst := k }) ∧
    (let s := { unmapQ {} {} with agenda := [.event (.queueUnmap 1 true)] }
     s.disabling 1 = true) ∧ (mapQ {} { qst := 4 }).disabling 1 = false := by decide +kernel
theorem byte_above (s : State) (a : Nat) (h : (s.mem.all fun x => decide (x.1 < a)) = true) : s.byte a = 0 := by
  unfold State.byte
  revert h
  generalize s.mem = m
  induction m with
  | nil => intro _; rfl
  | cons x m ih =>
    intro h
    simp only [List.all_cons, Bool.and_eq_true, decide_eq_true_eq] at h
    have : ¬(x.1 = a) := by omega
    obtain ⟨k, y⟩ := x
    simpa [Tbl.get, this] using ih h.2

theorem rd_above (s : State) (a n : Nat) (h : (s.mem.all fun x => decide (x.1 < a)) = true) : s.rd a n = 0 := by
  unfold State.rd
  induction n generalizing a with
  | zero => rfl
  | succ n ih =>
    have h1 : (s.mem.all fun x => decide (x.1 < a + 1)) = true := by
      simp only [List.all_eq_true, decide_eq_true_eq] at h ⊢
      exact fun x hx => Nat.lt_succ_of_lt (h x hx)
    simp [State.bytes, leNat, byte_above s a h, ih (a + 1) h1]

theorem candidate_above (s : State) (die q : Nat) (h : (s.mem.all fun x => decide (x.1 < s.qdesc q + 0x30)) = true) : s.candidate die q = false := by
  unfold State.candidate State.qv
  by_cases hm : (Tbl.get {} s.q q).mapped
  · simp [hm]
  · simp [hm, rd_above s _ 8 h, bitsOf]

/-- Only queue 1 may be mapped on die 0. -/
theorem best_one (s : State) (h : (s.mem.all fun x => decide (x.1 < s.qdesc 2 + 0x30)) = true) (h0 : s.candidate 0 0 = false)
    (h1 : s.candidate 0 1 = true) : s.bestCandidate 0 = some 1 := by
  have hf : (upto 4096).filter (s.candidate 0) = (upto 4096).filter fun q => q == 1 := by
    refine List.filter_congr fun q _ => ?_
    rcases q with _ | _ | q
    · rw [h0]; rfl
    · rw [h1]; rfl
    · rw [candidate_above]
      · simp
      · rw [List.all_eq_true] at h ⊢
        intro x hx
        have h2 := of_decide_eq_true (h x hx)
        have h3 : s.qdesc 2 ≤ s.qdesc (q + 1 + 1) := by unfold State.qdesc; omega
        exact decide_eq_true (by omega)
  unfold State.bestCandidate
  rw [hf, show ((upto 4096).filter fun q => q == 1) = [1] by decide +kernel]
  rfl

/-- A queue that is Idle with a packet, for a partition of one die. -/
def waitingQ : State := unmapQ { state := 3, dies := 1 } { qst := 1, widx := 1 }
theorem wit_QueueCommands_map : waitingQ.slotFree 0 0 = true ∧ waitingQ.bestCandidate 0 = some 1 ∧ (waitingQ.qv 1).wakea = 0 :=
  ⟨by decide +kernel, best_one _ (by decide +kernel) (by decide +kernel) (by decide +kernel), by decide +kernel⟩
/-- The partition's CP threads are all taken, by empty queues that are mapped long since. -/
def fullQ : State :=
  { waitingQ with q := (List.range 32).map fun t => (2 + t, ({ mapped := true, thr := t, qst := 2 } : QHeld)) }
theorem wit_QueueCommands_evict : (fullQ.qv 2).mapped = true ∧ (fullQ.qv 2).qst ≠ 4 ∧ fullQ.mayEvict 2 = true := by
  refine ⟨by decide +kernel, by decide +kernel, ?_⟩
  have h := best_one fullQ (by decide +kernel) (by decide +kernel) (by decide +kernel)
  have hn : fullQ.noSlot 1 = true := by decide +kernel
  have hv : (fullQ.victims 1 (fullQ.qv 1).pcls).contains 2 = true := by decide +kernel
  have hd : (fullQ.cx (fullQ.qv 2).cid).dies = 1 := by decide +kernel
  simp only [State.mayEvict, hd, hn, Bool.true_and, List.any_eq_true]
  exact ⟨0, by decide, by rw [h]; exact hv⟩
/-- Doorbells at the bounds: all four slots of the ring, none, and one more than it has. -/
theorem wit_QueueCommands_doorbell :
    let h : QHeld := { qst := 1, ridx := 2 ^ 32 - 2, widx := 2 ^ 32 - 2 }
    (unmapQ {} h).qv 1 = h ∧ 2 ^ (unmapQ {} h).qsz 1 = 4 ∧ (2 + 2 ^ 32 - h.ridx) % 2 ^ 32 = 4 ∧ (h.widx + 2 ^ 32 - h.ridx) % 2 ^ 32 = 0 ∧
    4 < (3 + 2 ^ 32 - h.ridx) % 2 ^ 32 := by decide +kernel

/-- What a fault writes lies outside the descriptor: `RingApart`, decided. -/
def ringApart (s : State) (q code : Nat) : Bool :=
  let h := s.qv q
  let u := (s.unload q).qput q (faulted h code)
  let v := (u.ringStatus q 0 h.ridx).getD u
  let apart (l : Option Nat) : Bool := l.all fun l => decide (l + 8 ≤ s.qdesc q + 8 ∨ s.qdesc q + 56 ≤ l)
  apart (u.hwLoc h.cid (u.ringEnd q % 2 ^ 56) true).1 && apart (v.hwLoc h.cid ((v.ringEnd q + 8) % 2 ^ 56) true).1
/-- A doorbell that overruns the ring, and one behind `WIDX`; a doorbell during a reset of the queue's context. -/
theorem wit_QueueCommands_fault :
    (∀ m ∈ [false, true], let h : QHeld := { qst := 2, ridx := 2, widx := 4 }
      let s := if m then mapQ {} h else unmapQ {} h
      DescFree s 1 ∧ Fits (s.qv 1) ∧ ringApart s 1 3 = true ∧ (s.qv 1).qst = 2 ∧ s.resetHits 0 = false ∧ 2 ^ s.qsz 1 < (7 + 2 ^ 32 - 2) % 2 ^ 32 ∧
      (3 + 2 ^ 32 - 2) % 2 ^ 32 < (4 + 2 ^ 32 - 2) % 2 ^ 32) ∧
    (let s := unmapQ { state := 4, dies := 15 } { qst := 1 }
     let s := { s with pkg := { s.pkg with reset := some (3, 15) } }
     s.resetHits (s.qv 1).cid = true ∧ DescFree s 1) := by unfold Fits; decide +kernel

/-- The fabric page of device 5 at 0x20000 is translated for queue 1's CP. -/
def farQ (h : QHeld) : State :=
  let s := mapQ { dies := 1 } h
  { s with tlb := { loc := 320, asid := 0, va := 0x20000, pte := .ofNat 64 (1 + 4 + 32 + 64 + 5 <<< 8 + 0x200 <<< 28) } :: s.tlb }
theorem wit_WakesAndFrames :
    (∀ v ∈ [0, 1], let s := mapQ { dies := 1 } { qst := 3, wakea := 0x11000, wakev := v }
     (Tbl.get {} s.watch 1).armed = false ∧ (match s.sigRead 1 0 0x11000 with | (.val loc x, _) => decide (loc = 0x1001000 ∧ x = 0) | _ => false) = true) ∧
    (let s := farQ { qst := 3, wakea := 0x20008, wakev := 1 }
     (Tbl.get {} s.watch 1).armed = false ∧ (match s.sigRead 1 0 0x20008 with | (.fabric g _, _) => decide (g = 5) | _ => false) = true) ∧
    Frame State.reset { port := 0, auth := true, len := 9216, vlan := none, udp := 18601 } ∧
    (let s := unmapQ { dies := 1 } { qst := 1, wakea := 0x11000 }
     let s := { s with watch := [(1, { hit := true })] }
     (s.qv 1).mapped = false ∧ (s.qv 1).wakea ≠ 0 ∧ (Tbl.get {} s.watch 1).hit = true ∧ DescFree s 1) ∧
    (let bs : List Byte := 1 :: List.replicate 3 0 ++ [1] ++ List.replicate 91 0
     (bs.length = 32 + 64 * 1 ∧ leNat (bs.take 1) = 1 ∧ leNat ((bs.drop 4).take 4) % 4096 = 1) ∧ leNat ((0 :: bs.drop 1).take 1) ≠ 1 ∧
     ((unmapQ {} { qst := 1 }).rd ((unmapQ {} { qst := 1 }).qdesc 1 + 0x38) 8).testBit 63 = false ∧
     (let s := withBytes (unmapQ {} { qst := 1 }) 0x3000078 8 (2 ^ 63)
      (s.qv 1).qst = 1 ∧ (s.rd (s.qdesc 1 + 0x38) 8).testBit 63 = true)) := by decide +kernel

/-- A location that the hardware reaches through a translation that it holds. -/
def held (s : State) (va : Nat) (loc : Nat) : Bool :=
  match s.hwLoc 0 (va % 2 ^ 56) true with
  | (some l, t) => decide (l = loc ∧ t = s)
  | _ => false
/-- The next slot of a ring, the last one before its end; and one on a page that migrates. -/
theorem wit_WakesAndFrames_ring :
    (let s := unmapQ { dies := 1 } { qst := 1, ridx := 3, widx := 3 }
     (∀ k, k < 8 → held s (s.ringVa 1 (3 + k / 8) + 8 * (k % 8)) (0x10000C0 + 8 * k) = true ∧
       s.hwWaits 0 ((s.ringVa 1 (3 + k / 8) + 8 * (k % 8)) % 2 ^ 56) = none ∧ s.inHst (0x10000C0 + 8 * k) 8 = false) ∧
     s.tags = [] ∧ s.inHst (s.qdesc 1 + 0x38) 8 = false ∧ s.frameWaits 1 1 = none ∧ s.resetHits 0 = false ∧ 0x10000C0 + 64 ≤ s.qdesc 1) ∧
    (let s := unmapQ { dies := 1 } { qst := 1 }
     let s := { s with held := [(heldKey 0 0x10000, { st := 3, pte := .ofNat 64 (1 + 2 + 32 + 64 + 0x1000000), newFrame := 0x1010000, prev := 5 })] }
     (s.frameWaits 1 1).isSome = true) := by decide +kernel

/-- Packets as flits hold them: a whole one of no data, one of a reserved kind, and the beginning of one with 300 bytes of data. -/
theorem wit_WakesAndFrames_flits :
    let whole : List Byte := List.replicate 32 0
    let rsvd : List Byte := List.replicate 7 0 ++ [0xF0] ++ List.replicate 24 0
    let part : List Byte := List.replicate 9 0 ++ [44, 1] ++ List.replicate 245 0
    (32 + headLen whole ≤ whole.length ∧ (arrivalOf 0 (pktOf whole)).isSome = true) ∧ (32 + headLen rsvd ≤ rsvd.length ∧ 10 ≤ (pktOf rsvd).kind) ∧
    (part.length = 256 ∧ part.length < 32 + headLen part) := by decide +kernel
/-- A reset of each rung has begun; a function with a context that has a request, and one without. -/
theorem wit_Resets_ends :
    (∀ r ∈ [(1, 1), (2, 3), (2, 16), (3, 15), (4, 0), (5, 0), (6, 0)], let s := ctxS { state := 4, dies := 15 }
      let s := { s with pkg := { s.pkg with reset := some r } }
      s.pkg.latched = [] ∧ (r.1 = 4 → ∃ m ∈ layoutOf s.pkg.pmode, inMask m 0 = true)) ∧
    (let s := ctxS { state := 8 }
     s.funcCtxs 0 = [0] ∧ ((s.funcCtxs 0).filter fun c => (s.cx c).state != 8) = [] ∧ s.hasRequest 0 = false ∧
     ({ s with fab := { out := [{ pk := pktOf [], owner := .ctx 0 }] } } : State).hasRequest 0 = true) := by decide +kernel
/-- A queue mapped on a CP whose reset has begun, and its status block. -/
theorem wit_Resets_cp :
    let h : QHeld := { qst := 2, mapped := true }
    let s := mapQ { state := 4, dies := 15 } { qst := 2 }
    s.qv 1 = h ∧ Tbl.wf {} s.q = true ∧ s.tags = [] ∧ DescFree s 1 ∧ Fits h ∧
    (∀ i, i < 2 → held s (s.ringEnd 1 + 8 * i) (0x1000100 + 8 * i) = true ∧ s.inHst (0x1000100 + 8 * i) 8 = false) ∧ 0x1000108 + 8 ≤ s.qdesc 0 := by
  unfold Fits; decide +kernel
theorem wit_Resets_write : let s := { State.reset with pkg := { reset := some (6, 0) } }
    whoAdmin .mc = true ∧ s.pkg.reset = some (6, 0) ∧ (6 : DWord).toNat % 8 = 6 := by decide +kernel
theorem wit_Resets : whoAdmin .mc = true ∧ whoAdmin (.hart 1 .hs) = true ∧ (whoAdmin (.cp 0 0) = false ∧ whoGuest (.cp 0 0) = false) ∧
    DescFree (unmapQ {} {}) 1 ∧ (15 ∈ layoutOf State.reset.pkg.pmode ∧ (15 : Nat).testBit 3 = true) ∧ 3 ∉ layoutOf State.reset.pkg.pmode ∧
    ((ctxS { state := 4, dies := 15 }).cx 0).dies &&& 15 ≠ 0 ∧ ((ctxS { state := 1 }).cx 0).func = 0 := by decide +kernel

/-- A packet's words. -/
def pkt (ws : List Nat) (ext : List Nat := []) : Packet := { words := ws.map (.ofNat 64 ·), ext := ext.map (.ofNat 64 ·) }
/-- Queue 1 mapped, of a Running context, with two packets to read. -/
def packetS : State := mapQ { state := 4, dies := 15 } { qst := 2, widx := 2, weight := 1, deficit := 100 }
/-- The packet's queue is served. -/
def beginsAt (s : State) (p : Packet) : Bool :=
  s.standsAt 1 (pkSlots p) && s.ordOk 1 p && decide (3 ≤ (s.cx (s.qv 1).cid).state ∧ (s.cx (s.qv 1).cid).state ≤ 6 ∧ pkCop p ≠ 3 ∧ pkCsig p = false) &&
    (s.arbPacket 1 (s.cx (s.qv 1).cid).dies).2
theorem beginsAt_spec {s : State} {p : Packet} (h : beginsAt s p = true) : ∃ s1, BeginsAt s 1 p s1 := by
  simp only [beginsAt, Bool.and_eq_true, decide_eq_true_eq] at h
  obtain ⟨⟨⟨h1, h2⟩, h3, h4, h5, h6⟩, h7⟩ := h
  exact ⟨_, h1, ⟨h3, h4⟩, h2, by rw [← h7], h5, h6⟩
/-- The state once the packet's queue is served. -/
def served (s : State) : State := (s.arbPacket 1 (s.cx (s.qv 1).cid).dies).1
theorem wit_SimplePackets :
    -- NOP, a WAIT for 0 and one for 1, the three forms of SIGNAL, PUBLISH, STEPMARK
    (∀ p ∈ [pkt [0], pkt [2, 0x11000, 0], pkt [2, 0x11000, 1], pkt [3, 0x11000, 5], pkt [3 + 2 ^ 16, 0x11000, 5], pkt [3 + 2 * 2 ^ 16, 0x11000, 5], pkt [9, 7], pkt [8, 7]],
      beginsAt packetS p = true ∧ ((served packetS).advance 1 (pkSlots p)).isSome = true) ∧
    isOk ((served packetS).cpPlace 0 0x11000 true false).1 (.loc 0x1001000) = true ∧
    isOk ((served packetS).cpPlace 0 0x11000 true true).1 (.loc 0x1001000) = true ∧
    (match ((served packetS).cpPlace 0 0x11000 true true).2.advance 1 1 with
     | some s3 => isOk (s3.cpPlace 0 0x11000 true true).1 (.loc 0x1001000) && decide (s3.rd 0x1001000 8 < 1) &&
         !(s3.cpPlace 0 0x11000 true true).2.inHst 0x1001000 8
     | none => false) = true ∧
    (match ((served packetS).cpPlace 0 0x11000 true false).2.advance 1 1 with
     | some s3 => isOk ((s3.qput 1 { s3.qv 1 with wakea := 0x11000, wakev := 1 }).cpPlace 0 0x11000 true false).1 (.loc 0x1001000)
     | none => false) = true := by decide +kernel
/-- Contexts that may not run, at the bounds, and `COP` 3. -/
theorem wit_SimplePackets_fault :
    (∀ st ∈ [0, 2, 7, 8], (mapQ { state := st, dies := 15 } { qst := 2, widx := 1 }).standsAt 1 1 = true) ∧
    (packetS.ordOk 1 (pkt [3 * 2 ^ 12]) = true ∧ pkCop (pkt [3 * 2 ^ 12]) = 3 ∧ (packetS.arbPacket 1 15).2 = true) ∧
    -- where the fault is written
    (∀ s ∈ [mapQ { state := 2, dies := 15 } { qst := 2, widx := 1 }, (packetS.arbPacket 1 15).1],
      DescFree s 1 ∧ Fits (s.qv 1) ∧ ringApart s 1 4 = true ∧ ringApart s 1 2 = true) := by unfold Fits; decide +kernel

/-- An accepted packet of queue 1 at index 0 that has not begun. -/
def accepted (kind : Nat) (pre : List (Nat × Nat)) : OutPkt := { q := 1, idx := 0, cid := 0, kind, w0 := 0, w6 := 0, w7 := 0, begun := false, pre }
/-- A code object at 0x12000: text at 0x12100, its kernel section at 0x12080, of a block size and a scratchpad size. -/
def withObj (s : State) (bdx spad : Nat) : State :=
  withBytes (withBytes (withBytes s 0x1002000 16 (0x4F434E58 + 2 ^ 32 + 2 ^ 48 + 2 ^ 64 * 2)) 0x1002040 32
    (2 ^ 56 + 0x100 + 2 ^ 64 * 8 + 2 ^ 128 * (3 * 2 ^ 56 + 0x80))) 0x1002080 16 (8 + 256 + spad * 2 ^ 32 + 2 ^ 64 * (bdx + 2 ^ 16 + 2 ^ 32))
def launchP : Packet := pkt [1, 0x12000, 2 ^ 32 + 2 ^ 16 + 1, 0, 0]
theorem wit_WorkPackets :
    (beginsAt packetS (pkt [4, 0x10000, 0x11000, 1]) = true ∧ packetS.copyChan 15 = some (0, 0) ∧
      (match (served packetS).cpAcs 1 0 0x10000 true false with
       | (some _, s2) => decide ((s2.cpAcs 1 0 0x11000 false true).1 = some (.loc 0x1001000)) && ((s2.cpAcs 1 0 0x11000 false true).2.advance 1 1).isSome
       | _ => false) = true) ∧
    (let s := { packetS with pkts := [accepted 7 [(1, 9)]] }
     beginsAt s (pkt [7]) = true ∧ (s.acceptedAt 1 0).isSome = true ∧ s.preOk [(1, 9)] = true ∧ ((served s).advance 1 1).isSome = true) ∧
    (let s := withObj { packetS with pkts := [accepted 1 []] } 1 0
     let s1 := served s
     beginsAt s launchP = true ∧ (s.acceptedAt 1 0).isSome = true ∧
     (match ({ s1 with gridCtr := s1.gridCtr + 1 } : State).launchCheck (some 1) 0 launchP with
      | (.ok _, s2) => (s2.advance 1 1).isSome
      | _ => false) = true) := by decide +kernel
/-- A DEPEND that writes handle 5, which an earlier packet writes. -/
def dependP : Packet := pkt [7 + 2 ^ 28, 2 ^ 30 + 5]
def afterS : State :=
  { packetS with pkts := [{ accepted 7 [] with idx := 9, begun := true }]
                 handles := [{ dies := 15, cid := 0, handle := 5, writer := some (1, 9), readers := [], transient := false, vacated := false }] }
theorem wit_WorkPackets_waits : afterS.standsAt 1 (pkSlots dependP) = true ∧ 3 ≤ (afterS.cx 0).state ∧ (afterS.cx 0).state ≤ 6 ∧
    afterS.ordOk 1 dependP = true ∧ afterS.acceptedAt 1 0 = none ∧ afterS.handleRoom 15 0 (pkHandles dependP) = true ∧
    (afterS.takeHandles 15 0 (1, 0) (pkHandles dependP)).1 = [(1, 9)] ∧ (∃ y ∈ afterS.pkts, y.q = 1 ∧ y.idx = 9) := by decide +kernel

/-- LOADSCHED of slot 2: an object of one word at 0x12000, a communicator of rank 0 of 1 at 0x12200, parameters at 0x12400. -/
def loadP : Packet := pkt [5 + 2 * 2 ^ 16, 0x12000, 0x12200, 0x12400]
def loadS (x : TSlot) : State :=
  withBytes (withBytes { packetS with slot := [(2, x)] } 0x1002000 16 (0x53544E58 + 2 ^ 32 + 2 ^ 64)) 0x1002200 32
    (2 ^ 16 + 2 ^ 128 * (2 * 2 ^ 20))
/-- The slot may be loaded. -/
def loads (x : TSlot) : Bool :=
  let s := loadS x
  beginsAt s loadP && decide (bitsOf (pkWord loadP 0) 16 6 = 2 ∧ s.sl 2 = x ∧ x.loader = none ∧ (x.st < 3 ∨ 5 < x.st) ∧ inMask 15 0 = true) &&
    ((served s).advance 1 0).isSome
/-- The slot, Loaded, may be Bound. -/
def binds (st : Nat) : Bool :=
  let s := loadS { st := 1, loader := some (1, st) }
  let u := s.unload 1
  s.standsAt 1 1 && decide (pkCsig loadP = false ∧ (u.sl 2).st = st) &&
    (match u.readSched 1 0 0x12000 with
     | (.ok o, s2) => match s2.readParams 1 0 0x12400 with
       | (.ok _, s3) => match s3.readComm 1 0 0x12200 with
         | (.ok (rank, size, comm), s4) => decide (rank = 0 ∧ size = 1) && s4.schedOk 15 2 0 o rank comm && (s4.advance 1 1).isSome
         | _ => false
       | _ => false
     | _ => false)
theorem wit_ScheduleAndNodePackets : (∀ st ∈ [0, 2, 6, 7], loads { st } = true ∧ binds st = true) ∧
    (∀ st ∈ [2, 6], beginsAt (loadS { st }) (pkt [6 + 2 * 2 ^ 16, 0]) = true ∧ ((served (loadS { st })).advance 1 1).isSome = true) := by decide +kernel
theorem wit_ScheduleAndNodePackets_collect : ∀ tmr ∈ [1, 128],
    let p := pkt [10 + 2 ^ 8 * 0 + 3 * 2 ^ 16, 0x12000, 0x11000, tmr]
    let s := withObj packetS 32 1024
    beginsAt s p = true ∧ bitsOf (pkWord p 0) 16 8 = 3 ∧ s.slotOfNode 15 3 = none ∧
    (let fits (o : KObj) : Bool := decide (o.bdx = 32 ∧ o.bdy = 1 ∧ o.bdz = 1 ∧ o.csize = 1 ∧ (8 * o.psz + 31) / 32 * 32 + 1024 ≤ o.spad ∧
       o.splice = none ∧ 1 ≤ tmr ∧ tmr ≤ 128 ∧ s.slotOfNode 15 3 = none)
     match (served s).objCheck (some 1) 0 0x12000 none 0x11000 0 (fun _ => true) fits with
     | (.ok _, s2) => (s2.advance 1 1).isSome
     | _ => false) = true := by decide +kernel

/-! ### Witnesses: grids, clauses, units -/

theorem wit_GridEvents_clusters :
    (let s := { State.reset with ccl := [(3, { waking := true })], time := 1500 }
     (s.cc 3).waking = true ∧ (s.cc 3).since + 1500 ≤ s.time) ∧
    (let s := { State.reset with ccl := [(3, { awake := true })], time := 10000, pow := { demand := 60 } }
     (s.cc 3).awake = true ∧ (s.cc 3).since + 10000 ≤ s.time ∧ (∀ k, k < 8 → ∀ y ∈ (s.co (8 * 3 + k)).chans, y.xs = []) ∧ s.gateOk 3 = true) := by
  decide +kernel
theorem wit_GridEvents_retire :
    let s := thrS { st := .exited }
    let s := { s with thr := (List.range 4).map fun k => (2048 + k, ({ st := if k = 0 then .exited else .ready, helper := k ≠ 0 } : Thr)) }
    s.retirable 2 = true ∧ (s.bk 2).peers = [2] ∧ (s.gr 1).retired + 1 ≠ (s.gr 1).total ∧
    (let t := s.setGr 1 { s.gr 1 with gx := 1 }
     t.retirable 2 = true ∧ (t.gr 1).retired + 1 = (t.gr 1).total) := by decide +kernel
/-- A record in flight to node 3. -/
def recS (x : Option TSlot) (nd : Node) : State :=
  { ctxS { state := 4, dies := 15 } with recs := [{ dies := 15, node := 3, cid := 0, body := [5, 6, 0, 0, 0] }], slot := (x.map fun x => (2, x)).toList
                                         node := [(15 * 256 + 3, nd)] }
def schedOf (st scount : Nat) : TSlot := { st, scount, nv := true, node := 3 }
theorem wit_GridEvents_records :
    (∀ x ∈ [schedOf 2 2, schedOf 2 1, schedOf 6 1, schedOf 3 1, schedOf 4 1, schedOf 5 1],
      (recS (some x) {}).recs[0]?.isSome = true ∧ (recS (some x) {}).slotOfNode 15 3 = some 2 ∧ (recS (some x) {}).sl 2 = x ∧ min (x.recs + 1) 65535 = 1) ∧
    ((recS none { def' := some {} }).slotOfNode 15 3 = none ∧ (Tbl.get {} (recS none { def' := some {} }).node (15 * 256 + 3)).def' = some {}) ∧
    (let x : Gather := { grid := {}, tmr := 500, first := 0, recs := List.replicate 31 [0, 0, 0, 0, 0] }
     let s := recS none { def' := some {}, tmr := 500, gathers := [x] }
     s.slotOfNode 15 3 = none ∧ (Tbl.get {} s.node (15 * 256 + 3)).gathers = [x] ∧ x.recs.length = 31 ∧ x.first + x.tmr ≤ s.time) := by decide +kernel

/-- A thread of `demo`'s page stands at its clause, with no group on the core. -/
def freshS (bucket : Int) : State :=
  let s := (demo (.exit exitW)).modTh 1024 fun t => { t with pc := mkPc placeVa 0 }
  let s := s.modCo 0 fun c => { c with grp := none, bucket }
  { s with pkg := { s.pkg with price := [(16 * 0xD5, (.ofNat 32 (2 ^ 16)))] } }
/-- Threads may begin their clause on core 0, for an amount. -/
def issuesWith (s sb : State) (ms : List Nat) (amt : Nat) : Bool :=
  let c := s.co 0
  let pc := (sb.th (ms.headD 0)).pc
  decide ((s.di (coreDie 0)).relock = false ∧ c.grp = none ∧ (∀ g ∈ c.replay, g.hdr = 0) ∧ ms ≠ []) && match sb.header (ms.headD 0) with
    | (.ok h, s1) =>
        let x := s1.memberChecks (mkPc (pcHeader pc) 0) (pcSlot pc == 0) ms
        !x.1.isEmpty && x.2.charge (x.1.headD 0) (pcHeader pc) (max 1 (pcSlot pc)) x.1.length (x.2.clauseWords (x.1.headD 0) h) == amt &&
          decide ((x.2.co 0).bucket = c.bucket)
    | _ => false
/-- The entry that the table picks begins, with tokens and without. -/
theorem wit_ClauseIssues : ∀ b ∈ [(1 : Int), 0], let s := freshS b
    (s.co 0).bucket = b ∧ ((s.undefer 0).fillTable 0).stalledAt 0 = [] ∧ (s.co 0).replay = [] ∧
    (match (tabled s 0).pickEntry 0 with | some e => issuesWith s (tabled s 0) e.members 1 | none => false) = true := by
  decide +kernel
/-- The clause that waits for tokens begins first, and with no other a group whose fault at its header is resolved. -/
theorem wit_ClauseIssues_first :
    (let s := (freshS 0).modCo 0 fun c => { c with stall := some ((freshS 0).keyOf 1024, [1024]) }
     ((s.undefer 0).fillTable 0).stalledAt 0 = [1024] ∧ issuesWith s ((s.undefer 0).fillTable 0) [1024] 1 = true) ∧
    (let g : Group := { addr := placeVa, hdr := 0, slot := 0, members := [1024] }
     let s := ((freshS 1).modTh 1024 fun t => { t with st := .stalled }).modCo 0 fun c => { c with replay := [g] }
     let x := ((tabled s 0).modCo 0 fun c => { c with replay := [] }).wakeGroup g
     ((s.undefer 0).fillTable 0).stalledAt 0 = [] ∧ (s.co 0).replay = [g] ∧ issuesWith s x.2 x.1 1 = true) := by decide +kernel
theorem wit_ClauseIssues_replay :
    let g := grp (.exit exitW)
    let s := ((demo (.exit exitW)).modTh 1024 fun t => { t with st := .stalled }).modCo 0 fun c => { c with grp := none, replay := [g] }
    (s.co 0).replay = [g] ∧ g.hdr ≠ 0 ∧ g.slot ≠ 0 ∧ (∀ m ∈ g.members, s.resident m = true ∧ (s.th m).st = .stalled ∧ (s.th m).token = none) ∧ g.members ≠ [] := by
  decide +kernel

def pend0 : Pend := { flag := 3, dst := .reg 8, vals := [5], src := .here }
theorem wit_ResultsReturn :
    (thrS { pend := [pend0] }).resident 2048 = true ∧ ((thrS { pend := [pend0] }).th 2048).pend[0]? = some pend0 ∧ pend0.err = none ∧
    (owes 3 0x0E 0x10000 false 0).err.isSome = true ∧ (owes 3 0x0E 0x10000 false 0).src = .here ∧
    (let s := (thrS { pend := [{ pend0 with src := .mma 4 }] }).modCo 0 fun c => { c with muOut := [{ num := 4, outs := [2048] }] }
     s.resident 2048 = true ∧ (s.co 0).muOut = [{ num := 4, outs := [2048] }] ∧ (s.th 2048).pend = [{ pend0 with src := .mma 4 }]) ∧
    (let s := (thrS {}).modCo 0 fun c => { c with mu := [{ num := 4, outs := [2048] }] }
     (s.co 0).mu = [{ num := 4, outs := [2048] }] ∧ ∀ gk ∈ s.gangsOn 0, ∀ j, j < 8 → ((s.gg gk).join j).issuing = false) := by decide +kernel
/-- A load's result for one lane of a register word, the other lane's having come; and a power intent that has no outcome. -/
theorem wit_ResultsReturn_more :
    (let p := { pend0 with tok := 1, both := true }
     (thrS { pend := [p] }).resident 2048 = true ∧ ((thrS { pend := [p] }).th 2048).pend[0]? = some p ∧ p.err = none ∧ p.tok ≠ 0 ∧
     ∀ y ∈ ((thrS { pend := [p] }).th (tidPair 2048)).pend, y.tok ≠ p.tok) ∧
    (let r : OutReq := { pk := { kind := 6, via := 0x3FF, sinc := 0, dinc := 0, seq := 9, tag := 3, sgdn := 0, dgdn := 5, hop := 0, opx := 0, pa := 0, edge := 0, atype := 0, data := [] }
                         owner := .gov }
     let s := { thrS {} with fab := { out := [r] } }
     s.resident 2048 = true ∧ s.fab.out = [r] ∧ r.pk.tag = 3 ∧ r.sentAt + 2 * (s.pkg.dline * 1000) ≤ s.time ∧ r.pk.dgdn / 2 ^ 10 = s.pkg.pod) := by
  decide +kernel

/-- A transfer of a row of two bytes at 0x11000, in a box of some size from some coordinate. -/
def xfer (store : Bool) (box : Nat) (x0 : Int) : Xfer :=
  { tid := none, cid := 0, num := 0, pc := 0, tmpl := { Tmpl.zero with tbase := 0x11000, v := true, rank := 1, dims := [{ dim := 2, str := 1, box }] }, store
    coord := [x0], base := spadLoc 0 0, c := 0, obj := none, edge := 0, seq := 0, done := [] }
def xferS (x : Xfer) : State := (ctxS { state := 4, dies := 15 }).modCo 0 fun c => { c with chans := [{ xs := [x] }, {}, {}, {}] }
/-- Element n of the transfer, whose access at 0x11000 + off passes. -/
def elementAt (x : Xfer) (n off : Nat) : Bool :=
  let s := xferS x
  decide (((s.co 0).chan 0).xs.head? = some x ∧ ((s.co 0).chan 0).faulted = false ∧ n < x.tmpl.count ∧ x.done = [] ∧ x.inside n = true ∧
    s.inHst (x.spadLoc n) x.tmpl.e = false ∧ s.inHst (0x1001000 + off) x.tmpl.e = false) &&
  match s.engAcs 0 0 (x.global (x.coords n)) (!x.store) x.store with
  | (.ok y p, s1) => decide (p = .loc (0x1001000 + off) ∧ y.held.st ≠ 4) && !s1.poisoned (0x1001000 + off) 1
  | _ => false
theorem wit_EngineEvents : (∀ n ∈ [0, 1], elementAt (xfer false 2 0) n n = true ∧ elementAt (xfer true 2 0) n n = true) ∧
    ((xfer false 2 (-1)).inside 0 = false ∧ 0 < (xfer false 2 (-1)).tmpl.count ∧ (xfer false 2 (-1)).tmpl.edge = 0) ∧
    (let x := { xfer false 2 0 with tmpl := { (xfer false 2 0).tmpl with tbase := 0x30000 } }
     x.inside 0 = true ∧ (match (xferS x).engAcs 0 0 (x.global (x.coords 0)) true false with | (.fail _, _) => true | _ => false) = true) := by decide +kernel
/-- A load and a store whose object lies apart. -/
theorem wit_EngineEvents_object : ∀ store ∈ [false, true],
    let x := { xfer store 2 0 with obj := some (0x1001100, 0x11100) }
    let s := (xferS x).putObj 0x1001100 obj0
    ((s.co 0).chan 0).xs.head? = some x ∧ (0x1001100 + 32 ≤ x.spadLoc 0 ∨ x.spadLoc 0 + x.tmpl.e ≤ 0x1001100) ∧ 0x1001000 + x.tmpl.e ≤ 0x1001100 ∧
    (s.obj 0x1001100).apend ≠ 0 ∧ s.inHst 0x1001100 32 = false ∧ devLoc 0x1001100 = false ∧ s.objWaits 0x1001100 0x11100 x.cid = false ∧
    -2 ^ 39 ≤ (s.obj 0x1001100).bpend - (x.tmpl.e : Nat) ∧
    (match s.engAcs 0 0 (x.global (x.coords 0)) (!store) store with
     | (.ok y p, s1) => decide (p = .loc 0x1001000 ∧ y.held.st ≠ 4) && !s1.poisoned 0x1001000 1
     | _ => false) = true := by decide +kernel
/-- A template of one byte at 0x10000, and the aperture's start of it. -/
theorem wit_EngineEvents_aperture :
    let s := withBytes (ctxS { state := 4, dies := 15, tmplbase := 0x10000 }) 0x1000000 24 (0x11000 + 2 ^ 128 * (2 ^ 63 + 1))
    let s := withBytes s 0x1000040 24 (1 + 2 ^ 64 + 2 ^ 128)
    s.apAccepts (.hart 1 .hs) 0 = true ∧ (s.cx 0).state = 4 ∧ inMask 15 (coreDie 0) = true ∧ ((s.co 0).chan 0).xs = [] ∧
    (match (s.apStat 0 0 0 0).engAcs 0 0 0x10000 true false with
     | (.ok _ p, s1) => decide (p = .loc 0x1000000 ∧ (s1.readTmpl 0x1000000).reason false = none ∧ (s1.readTmpl 0x1000000).spadOk 0 = true ∧
         (s1.readTmpl 0x1000000).foot ≤ 393216)
     | _ => false) = true ∧ (ctxS { state := 3 }).apAccepts (.hart 1 .hs) 0 = true ∧
    -- a channel that is full
    (let s := (ctxS { state := 4, dies := 15 }).modCo 0 fun c => { c with chans := [{ xs := List.replicate 16 (xfer false 2 0) }, {}, {}, {}] }
     s.apAccepts (.hart 1 .hs) 0 = true ∧ 16 ≤ ((s.co 0).chan 0).xs.length) := by decide +kernel
/-- A page of 64 KiB that migrates to the frame 0x1010000. -/
theorem wit_EngineEvents_migrate : ∀ prev ∈ [1, 5],
    let s := { ctxS { state := 4 } with held := [(heldKey 0 0x10000, { st := 3, pte := .ofNat 64 (1 + 2 + 32 + 64 + 0x1000000), newFrame := 0x1010000, prev })] }
    (match s.heldOf 0 0x10000 with | some (b, h) => decide (b = 0x10000 ∧ h.st = 3 ∧ h.prev = prev) | none => false) = true ∧
    s.inHst 0x1010000 (psBytes 0) = false ∧ Memory.wf s.mem = true ∧ (∀ x ∈ ({ s with ctx := [] } : State).ctx, x.2.asid ≠ 0) ∧
    (s.held.all fun x => pteKind x.2.pte == 1 && pteFrame x.2.pte == 0x1000000) = true ∧ (s.ctx.all fun x => x.2.state == 4) = true ∧
    (({ s with thr := [(2048, { wait := .barrier (0x1000000 + 32) 0 })] } : State).th 2048).wait =
      .barrier (0x1000000 + 32) 0 := by decide +kernel
/-- The page migrates for the one context of its ASID. -/
theorem wit_EngineEvents_walks :
    let h : Held := { st := 3, pte := .ofNat 64 (1 + 2 + 32 + 64 + 0x1000000), newFrame := 0x1010000, prev := 5 }
    let s := { ctxS { state := 4, v := true, root := 0x200 } with held := [(heldKey 0 0x10000, h)] }
    Memory.wf s.mem = true ∧ pteKind h.pte = 1 ∧ s.inHst h.newFrame (psBytes h.ps) = false ∧ h.newFrame + psBytes h.ps ≤ hbmTop ∧
    (s.ctx.filter (fun y => y.2.asid == 0)).length = 1 ∧ (∀ x ∈ s.ctx, x.2.v = true) ∧
    (let w := (s.copyFrame h).walkEnd 0x200 0x10000
     ∀ e ∈ entriesAt w.1 w.2 h.ps, s.inHst e 8 = false ∧ (e + 8 ≤ h.newFrame ∨ h.newFrame + psBytes h.ps ≤ e)) := by decide +kernel

/-! ### Witnesses: registers, pages, power, management -/

theorem wit_HostAccesses :
    (whoHsm (.hart 1 .hs) = true ∧ whoGuest (.hart 2 .vs) = true ∧ whoAdmin .mc = true ∧ whoF .mc = true ∧
      whoF (.hart 1 .hs) = false ∧ whoGuest (.hart 1 .hs) = false) ∧
    (∀ st ∈ [0, 1, 2, 8], ((ctxS { state := st }).cx 0).state = st) ∧
    -- an RRCTL that is accepted, and LK values at the bounds of FMHZ
    (let v : DWord := .ofNat 64 (2 ^ 15 + 2 ^ 16 + 8)
     v.getLsbD 15 = true ∧ (((ctxS {}).cx 0).rrbase.getD 0 0).toNat / 2 ^ 16 % 2 ^ 40 < v.toNat / 2 ^ 16 % 2 ^ 40 ∧ v.toNat % 16 ≤ 8 ∧
     (((ctxS {}).cx 0).rrctl.all fun y => !y.getLsbD 15) = true ∧ (∀ y ∈ (ctxS {}).ctx, y.1 ≠ 0 → y.2.dies ≠ ((ctxS {}).cx 0).dies)) ∧
    ([499, 500, 2000, 2001].all fun f => let v : DWord := .ofNat 64 (2 ^ 63 + f * 2 ^ 48)
      v.getLsbD 63 && decide (v.toNat / 2 ^ 48 % 2 ^ 11 = f)) = true := by decide +kernel
/-- Both kinds of mailbox, a port that is on and one that is off, and device space. -/
theorem wit_HostAccesses_more :
    mbxOf .side = some 1 ∧ mbxOf (.hart 1 .hs) = some 0 ∧ (∀ w ∈ [1, 2, 4, 8], (0x1FC0 - w) % w = 0) ∧
    ((State.reset.pt 31).en = false ∧ (({ State.reset with fab := { port := [(31, { en := true })] } } : State).pt 31).en = true) ∧
    (∀ w ∈ [1, 8], hbmTop < hbmTop - 1 + w ∨ w = 1) ∧ inPcie (hbmTop + 0x20) = false := by decide +kernel
theorem wit_HostAccesses_hart : ∀ w ∈ [1, 2, 4, 8],
    hbmTop - w + w ≤ hbmTop ∧ State.reset.poisoned (hbmTop - w) w = false ∧ State.reset.inHst (hbmTop - w) w = false ∧
    Tbl.get none ({ State.reset with hres := [(3, some (hbmTop - 8, 8))] } : State).hres 3 = some (hbmTop - 8, 8) ∧ hbmTop - 8 ≤ hbmTop - w ∧
    Tbl.get none State.reset.hres 3 = none := by decide +kernel

/-- Another tag than the bytes of the line at 0x2000000 give, in memory that nothing has written. -/
def otherTag : BitVec 32 := crc32c (State.reset.bytes (0x2000000 / 128 * 128) 128) + 1
theorem otherTag_other : otherTag ≠ crc32c (State.reset.bytes (0x2000000 / 128 * 128) 128) := by unfold otherTag; generalize crc32c _ = x; bv_omega
theorem wit_HostAccesses_tag :
    let s := { State.reset with tags := [(0x2000000 / 128, some otherTag)] }
    Tbl.get none s.tags (0x2000000 / 128) = some otherTag ∧ s.bytes (0x2000000 / 128 * 128) 128 = State.reset.bytes (0x2000000 / 128 * 128) 128 ∧
    s.mg.ras.length < 4096 ∧ 0x2000000 + 8 ≤ hbmTop ∧ State.reset.tagBad ((hbmTop - 8) / 128) = false :=
  ⟨rfl, rfl, by decide +kernel, by decide +kernel, by decide +kernel⟩

/-- A page command on the page at 0x10000, frame 0x1000000, that has a record. -/
def pageS (h : Held) (c : Ctx) : State :=
  { ctxS { c with pgva := 0x10000 } with held := [(heldKey 0 0x10000, { h with pte := .ofNat 64 (1 + 2 + 32 + 64 + 0x1000000) })] }
/-- The page that it finds. -/
def pageOf (h : Held) : Pg :=
  let pte : DWord := .ofNat 64 (1 + 2 + 32 + 64 + 0x1000000)
  { base := 0x10000, pte, h := { h with pte }, isRec := true }
/-- The page is found. -/
def pageAt (s : State) (p : Pg) : Bool :=
  decide (Tbl.wf {} s.ctx = true ∧ whoAdmin s.acc.who = true ∧ s.acc.idx % 256 = 0 ∧ (s.cx 0).pbusy = false ∧ p.base = (s.cx 0).pgva.toNat / 2 ^ 16 * 2 ^ 16 % 2 ^ 56) &&
    match s.findPage 0 p.base with
    | .ok q => decide (q = p)
    | .error _ => false
theorem pageAt_spec {s : State} {p : Pg} (h : pageAt { s with acc := { s.acc with idx := 0 } } p = true) : PageAt { s with acc := { s.acc with idx := 0 } } 0 p := by
  simp only [pageAt, Bool.and_eq_true, decide_eq_true_eq] at h
  obtain ⟨⟨h0, h1, _, h3, h4⟩, h5⟩ := h
  refine ⟨h0, ⟨h1, rfl⟩, h3, ?_, h4⟩
  split at h5
  · next q hq => rw [hq, of_decide_eq_true h5]
  · cases h5
/-- PageCommands: a page in each state, a frame that fits and one that does not, marks, and written sectors. -/
theorem wit_PageCommands :
    ([1, 2, 3, 4, 5, 6].all fun st => let s := { pageS { st } {} with acc := { who := .hart 1 .hs, idx := 0, val := 0 } }
      pageAt s (pageOf { st })) = true ∧
    FrameFits (pageS { st := 1 } { pgpa := 0x20000 }) 0 0 ∧ ¬FrameFits (pageS { st := 1 } { pgpa := .ofNat 64 hbmTop }) 0 0 ∧
    FrameFits (pageS { st := 1 } { pgpa := .ofNat 64 (hbmTop - 0x10000) }) 0 0 ∧ pteKind (pageOf { st := 1 }).pte = 1 ∧
    (pageOf { st := 4, written := [3] }).h.written ≠ [] ∧
    (let s := { pageS { st := 5 } {} with poison := [0x1000000 / 32] }
     s.marks (pageOf { st := 5 }).pte = [0x1000000 / 32] ∧ s.poison.Nodup ∧ (∀ k ∈ s.marks (pageOf { st := 5 }).pte, s.inHst (32 * k) 32 = false)) ∧
    (pageS { st := 1 } {}).marks (pageOf { st := 1 }).pte = [] := by
  unfold FrameFits; decide +kernel
/-- No page at the address, and a table that breaks the rules. -/
theorem wit_PageCommands_none :
    (match (ctxS {}).findPage 0 0 with | .error .absent => true | _ => false) = true ∧
    (match (withBytes (ctxS { root := 0x200 }) 0x2000000 8 3).findPage 0 0 with | .error .malformed => true | _ => false) = true ∧
    ((ctxS { pbusy := true }).cx 0).pbusy = true ∧ (ctxS {}).faults = [] := by decide +kernel
/-- A Pinned page that its context's save area keeps, and one that it does not. -/
theorem wit_PageCommands_kept : ∀ st ∈ [1, 3],
    (pageS { st := 2 } { state := st, savebase := 0x10000, savelen := 4096 }).boundPage 0 0x10000 (psBytes 0) = decide (st = 3) := by decide +kernel
/-- A group Fault-stalled at a slot. -/
theorem wit_PageCommands_resolve : ∀ bit ∈ [0, 2 ^ 25],
    let s := thrS { st := .stalled, token := some 7 }
    let f : FStall := { token := 7, cid := 0, core := 0, grp := { addr := 0x10000, hdr := 0, slot := 1, members := [2048] }, absent := [(2048, 0x20000)]
                        rec' := { cause := 9, agent := 0, va := 0x20000 }, written := true }
    let s := { s with faults := [f], ctx := [(0, { (s.cx 0) with pgarg := .ofNat 64 (7 * 2 ^ 32 + bit) })] }
    s.faults = [f] ∧ f.cid = 0 ∧ f.token = (s.cx 0).pgarg.toNat / 2 ^ 32 ∧ s.resident 2048 = true ∧ (s.th 2048).st = .stalled ∧
    (s.th 2048).token = some f.token ∧ (s.th 2048).inh = false := by decide +kernel

/-- A die with a hint and a scrub range, and tokens offered. -/
def dieS (x : Die) (offered : Int) : State :=
  let s := ctxS { state := 4, dies := 15 }
  { s with die := [(0, x)], pow := { s.pow with offered }
           pkg := { s.pkg with price := [(16 * 0xEA + 8, .ofNat 32 (2 * 2 ^ 16)), (16 * 0xEA + 10, .ofNat 32 (3 * 2 ^ 16))] } }
theorem wit_PowerEvents_dies :
    (∀ x ∈ [({ relock := true } : Die), { relock := true, lk := true, lka := true }, { relock := true, lk := true }], (dieS x 0).di 0 = x) ∧
    (({ dieS {} 0 with pow := { tstep := 4 } } : State).pow.tstep = 4 ∧ ({} : Die).relock = false) ∧
    (∀ n ∈ [1, 2], let s := dieS { hints := [(0, 0x10000 / 128, n)] } 2
      (s.hintPrice : Int) ≤ s.pow.offered ∧ (match s.xlat 0 none 0 (0x10000 / 128 * 128) with
        | (.ok y, _) => pteR y.pte && decide (y.held.st ≠ 6 ∧ pteKind y.pte = 1)
        | _ => false) = true) ∧
    ((1 : Int) < (dieS {} 1).hintPrice) ∧
    (∀ n ∈ [0, 1, 2], let s := dieS { scrubs := if n = 0 then [] else [(0, 0x10000 / 128, n)] } 3
      (s.scrubPrice : Int) ≤ s.pow.offered - s.hintNeed ∧ s.scrubPrice ≤ s.scrubLeft) ∧
    (dieS {} 2).pow.offered - (dieS {} 2).hintNeed < ((dieS {} 2).scrubPrice : Int) := by decide +kernel
/-- A correctable error in the line that the patrol reads next; and a die without a range while another has one. -/
theorem wit_PowerEvents_scrub :
    (let s := { dieS {} 3 with soft := [2] }
     (s.di 0).scrubs = [] ∧ (∀ k, k < 4 → (s.di k).scrubs = []) ∧ 2 / 4 = s.pow.scrubAt ∧ s.mg.ras.length < 4096 ∧
     (s.scrubPrice : Int) ≤ s.pow.offered - s.hintNeed ∧ s.scrubPrice ≤ s.scrubLeft) ∧
    (let s := { dieS {} 3 with die := [(1, { scrubs := [(0, 0, 1)] })] }
     (s.di 0).scrubs = [] ∧ (s.di 1).scrubs ≠ []) := by decide +kernel
theorem wit_PowerEvents :
    (let s := dieS {} 80000000
     let s := { s with ccl := [(0, { awake := true })] }
     s.idleCore 0 = true ∧ (s.co 0).testing = false ∧ 160 * 256 ≤ s.pow.offered - ((s.hintNeed + s.scrubLeft : Nat) : Int) ∧ s.mg.ras.length < 4096 ∧
     s.idleCore 8 = false) ∧
    (∀ k ∈ [999, 1000], let s := { State.reset with time := 1000000, pow := { k } }
      (k = 999 → s.pow.k < s.time / 1000) ∧ (k = 1000 → s.time / 1000 ≤ s.pow.k)) ∧ Tbl.wf {} State.reset.core = true ∧
    (let s := { State.reset with time := 100000, pow := { tgtStep := 1 } }
     s.pow.tstep ≠ s.pow.tgtStep ∧ s.pow.stepAt + 100000 ≤ s.time) := by decide +kernel
/-- Sensors at the bounds of 95, and 115 degrees. -/
theorem wit_PowerEvents_sensors :
    (∀ a ∈ [95 * 16 - 1, 95 * 16, 115 * 16 - 1], let sn : Sensors := { charge := [1, 2, 3, 4], temps := [a, 0, 0, 0] }
      sn.charge.length = 4 ∧ 4 ≤ sn.temps.length ∧ (∀ x ∈ sn.temps, x < 115 * 16)) ∧
    (∃ x ∈ ({ charge := [1, 2, 3, 4], temps := [0, 0, 0, 115 * 16] } : Sensors).temps, 115 * 16 ≤ x) := by
  refine ⟨by decide +kernel, 115 * 16, by decide +kernel, by decide⟩
/-- Two core clusters of die 0 take tokens, and its bucket just holds them. -/
theorem wit_PowerEvents_tick :
    let s := { State.reset with die := [(0, { bucket := 65536 * 256 })], ccl := (List.range 8).map fun k => (k + 2, ({ waking := true } : Ccl)) }
    (∀ k, k < 4 → (s.di k).bucket ≤ 65536 * 256) ∧ (((upto 80).map fun i => lacks s (80 * 0 + i)).sum : Int) = (s.di 0).bucket := by
  unfold lacks; decide +kernel

theorem wit_PowerOnAndOff : (State.reset.mg.boot = .off ∧ State.reset.mg.thermtrip = false ∧ State.reset.mg.strap = false) ∧
    (let s := { State.reset with mg := { State.reset.mg with boot := .recovery } }
     s.mg.boot = .recovery ∧ s.mg.writing = none) ∧
    (let s := { State.reset with mg := { State.reset.mg with boot := .recovery, writing := some [1] } }
     s.mg.writing = some [1]) := by decide +kernel
/-- A sideband silent for just 10 ms, and for less. -/
theorem wit_PowerOnAndOff_silent : ∀ t ∈ [9999999, 10000000],
    let s := { State.reset with time := t, mg := { State.reset.mg with boot := .outOfService, silent := some 0 } }
    s.mg.boot = .outOfService ∧ s.agenda = [] ∧ s.mg.silent = some 0 ∧ s.mg.fault = false ∧ (t = 9999999 → s.time < 0 + 10000000) ∧
    (t = 10000000 → 0 + 10000000 ≤ s.time) := by decide +kernel
/-- Twelve stacks that are accepted, and eleven. -/
theorem wit_PowerOnAndOff_stacks : GoodStacks goodStacks ∧ ¬GoodStacks (goodStacks.take 11) := by
  refine ⟨⟨0, by decide⟩, fun ⟨p, h⟩ => ?_⟩
  have h11 := h 11 (by decide)
  simp [goodStacks] at h11

/-- A command in a mailbox. -/
def mbxS (n : Nat) (x : Mbx) : State :=
  let s := ctxS {}
  { s with mg := { s.mg with mbx := if n = 0 then [{ x with busy := true }, {}] else [{}, { x with busy := true }] } }
theorem wit_MailboxCommands :
    (∀ n ∈ [0, 1], ∀ k ∈ [1, 2, 3, 4, 6, 7, 8, 9], Waits (mbxS n { opc := k }) n k) ∧
    (let s := { mbxS 0 {} with mg := { State.reset.mg with mbx := [{ busy := true, opc := 1 }, { busy := true, opc := 1 }], sel := 1 } }
     s.mg.sel = 1 - 0 ∧ ∀ k, k < 2 → (s.mbx k).busy = true ∧ (s.mbx k).opc = 1) ∧
    (∀ a ∈ [0, 2, 3, 7, 8], Waits (mbxS 0 { opc := 3, arg := a }) 0 3 ∧ ((mbxS 0 { opc := 3, arg := a }).mbx 0).arg = a) ∧
    ((mbxS 0 { opc := 4 }).mg.pkeySet = false ∧ (mbxS 0 { opc := 4 }).mg.firstBind = false) ∧
    (mbxS 0 { opc := 8, mmode := true }).mbx 0 = { opc := 8, mmode := true, busy := true } ∧
    (Waits (mbxS 0 { opc := 9, arg := 4 }) 0 9 ∧ ∀ y ∈ (mbxS 0 { opc := 9, arg := 4 }).ctx, y.2.state < 3) ∧
    (let s := { mbxS 0 { opc := 9, arg := 3 } with ctx := [(0, { state := 3, dies := 15 })] }
     Waits s 0 9 ∧ s.pkg.pmode = 4 ∧ ∃ y ∈ s.ctx, 3 ≤ y.2.state ∧ y.2.dies = 15) := by decide +kernel
/-- A command that is none while the other mailbox's waits, and in turn. -/
theorem wit_MailboxCommands_turn :
    (∀ k ∈ [0, 1], let s := { mbxS 1 { opc := 1 } with mg := { (mbxS 1 { opc := 1 }).mg with sel := k } }
      (s.mbx 0).busy = false ∧ (s.mbx 1).busy = true ∧ s.mg.sel = k) ∧ ((0 : DWord).toNat % 256 = 0 ∧ 9 < (10 : DWord).toNat % 256) ∧
    (let s := { mbxS 0 {} with mg := { State.reset.mg with mbx := [{ busy := true, opc := 10 }, { busy := true, opc := 1 }], sel := 0 } }
     s.mg.sel = 0 ∧ (s.mbx 1).busy = true ∧ (s.mbx 1).opc = 1 ∧ (s.mbx 0).busy = true ∧ (s.mbx 0).opc ∉ [1, 2, 3, 4, 5, 6, 7, 8, 9]) := by decide +kernel
/-- A debug command with its flags, that names one thread of the grid of `thrS`. -/
def dbgS (sub fl : Nat) (x : Thr) : State :=
  let s := thrS x
  { s with mg := { s.mg with mbx := [{ busy := true, opc := 5, buf := natLe 8 (sub + 256 * fl) ++ natLe 16 7 ++ natLe 4 1 }, {}] } }
theorem wit_MailboxCommands_debug :
    (∀ sub ∈ [1, 2, 3, 4, 5], WaitsDebug (dbgS sub 0 {}) 0 sub) ∧ (dbgS 1 0 { st := .ready }).dbgNamed ((dbgS 1 0 { st := .ready }).mbx 0) = [2048] ∧
    ((dbgS 1 0 { st := .ready }).th 2048).st = .ready ∧
    (let s := { dbgS 1 0 {} with grid := [], blk := [] }
     WaitsDebug s 0 1 ∧ s.dbgNamed (s.mbx 0) = []) ∧
    (let s := dbgS 3 0 { st := .halted }
     (s.dbgNamed (s.mbx 0)).filter (fun t => (s.th t).st == .halted) = [2048] ∧ (s.cx (s.mbx 0).dbgCtx).state ∉ [5, 6] ∧
     (leNat ((s.mbx 0).bytes 1 1)).testBit 1 = false) ∧
    (∀ sub ∈ [2, 3], ∀ st ∈ [5, 6], let s := { dbgS sub 0 { st := .ready } with ctx := [(0, { state := st, dies := 15 })] }
     WaitsDebug s 0 sub ∧ (s.cx (s.mbx 0).dbgCtx).state = st ∧ s.dbgNamed (s.mbx 0) ≠ []) ∧
    (∀ sub ∈ [3, 4], WaitsDebug (dbgS sub 2 {}) 0 sub ∧ (leNat (((dbgS sub 2 {}).mbx 0).bytes 1 1)).testBit 1 = true) := by decide +kernel

/-! ### Witnesses: the fabric, schedules, the machine as a whole -/

/-- A running device, member 0 of its pod, with port 0 in a state. -/
def portS (x : Port) : State := { ctxS {} with fab := { port := [(0, x)] } }
theorem wit_FabricEvents_ports :
    (∀ x ∈ [({ lst := 1 } : Port), { lst := 3 }, { lst := 1, consec := 2 }, { lst := 2 }, { lst := 0 }], (portS x).pt 0 = x) ∧
    (podNeighbours State.reset.pkg.member)[0]?.isSome = true ∧ (∃ g, g / 2 ^ 10 = State.reset.pkg.pod ∧ (podNeighbours State.reset.pkg.member)[0]? = some (g % 2 ^ 10)) ∧
    (1024 / 2 ^ 10 ≠ State.reset.pkg.pod) := by
  refine ⟨by decide +kernel, by decide +kernel, ⟨((podNeighbours State.reset.pkg.member)[0]?).getD 0, by decide +kernel⟩, by decide +kernel⟩

/-- A request of device 5 to this one, with sequence number 9. -/
def req (kind opx atype pa : Nat) (data : List Byte) : FabPkt :=
  { kind, via := 0x3FF, sinc := 0, dinc := 0, seq := 9, tag := 3, sgdn := 5, dgdn := 0, hop := 0, opx, pa, edge := 0, atype, data }
/-- Port 0 is Up, and this is kept for device 5. -/
def upS (x : SrcSt) : State := { ctxS {} with fab := { port := [(0, { lst := 2 })], src := [(5, x)] } }
/-- It is its turn, as the first request of its source and as the next. -/
theorem wit_FabricEvents_requests : (∀ n ∈ [none, some 9], ∀ pk ∈ [req 0 4 0 0x2000000 [], req 2 0 0 0x2000000 [1, 2], req 4 0 3 0x2000000 (natLe 8 1), req 4 0 3 signalBase (natLe 8 1), req 6 0 0 0 (natLe 16 1), req 7 0 0 0 (natLe 8 (2 ^ 26))],
      TurnOf (upS { next := n }) 0 pk) ∧
    (ctxS {}).fabCheck 0x2000000 16 = none ∧ (ctxS {}).inHst 0x2000000 8 = false ∧ signalOf 0x2000000 = none ∧
    (ctxS {}).fabCheck (hbmTop + 0x100000) 8 ≠ none ∧ (req 6 0 0 0 []).sgdn / 2 ^ 10 = (ctxS {}).pkg.pod := by
  refine ⟨?_, by decide +kernel⟩
  intro n hn pk hp
  simp only [List.mem_cons, List.not_mem_nil, or_false] at hn hp
  rcases hn with rfl | rfl <;> rcases hp with rfl | rfl | rfl | rfl | rfl | rfl <;>
    exact ⟨⟨by decide +kernel, by decide +kernel, by decide +kernel, by decide +kernel⟩, by decide +kernel, by decide +kernel, by decide +kernel,
      by decide +kernel⟩
/-- A read of a line with another stored tag; and a request of an older incarnation of its source. -/
theorem wit_FabricEvents_tag :
    (let s := { upS {} with tags := [(0x2000000 / 128, some otherTag)] }
     TurnOf s 0 (req 0 4 0 0x2000000 []) ∧ 0x2000000 + 2 ^ 4 ≤ hbmTop ∧ Tbl.get none s.tags (0x2000000 / 128) = some otherTag ∧
     s.bytes (0x2000000 / 128 * 128) 128 = State.reset.bytes (0x2000000 / 128 * 128) 128) ∧
    (let s := { upS {} with fab := { (upS {}).fab with inc := [(5, 1)] } }
     128 ≤ ((req 2 0 0 0 []).sinc % 2 ^ 8 + 2 ^ 8 - Tbl.get 0 s.fab.inc ((req 2 0 0 0 []).sgdn % 2 ^ 10) % 2 ^ 8) % 2 ^ 8) :=
  ⟨⟨⟨⟨by decide +kernel, by decide +kernel, by decide +kernel, by decide +kernel⟩, by decide +kernel, by decide +kernel, by decide +kernel,
    by decide +kernel⟩, by decide +kernel, rfl, rfl⟩, by decide +kernel⟩
/-- The signals of slots 0 and 63. -/
theorem wit_FabricEvents_signal :
    let s := { ctxS {} with slot := [(63, { st := 2, comm := [(1, 5, 0)] })] }
    signalOf signalBase = some (0, 0) ∧ signalOf (signalBase + 0x1FF8) = some (63, 15) ∧ 2 ≤ (s.sl 63).st ∧ (s.sl 63).st ≠ 7 ∧
    (∃ c ∈ (s.sl 63).comm, c.2.1 = (req 4 0 3 (signalBase + 0x1FF8) []).sgdn) := by
  refine ⟨by decide +kernel, by decide +kernel, by decide +kernel, by decide +kernel, (1, 5, 0), by decide +kernel, by decide +kernel⟩
/-- A PINT of the device's power group, and one of another pod. -/
theorem wit_FabricEvents_pint :
    let s : State := { ctxS {} with pow := { gid := 7 } }
    s.pow.gid ≠ 0 ∧ leNat (((req 6 0 0 0 (natLe 14 1 ++ natLe 2 7)).data.drop 14).take 2) = s.pow.gid ∧
    leNat (((req 6 0 0 0 (natLe 16 1)).data.drop 14).take 2) ≠ s.pow.gid ∧ (1029 : Nat) / 2 ^ 10 ≠ s.pkg.pod := by decide +kernel
/-- A request ahead of its turn, at the bounds of the buffer; and one for a neighbour by a port that is Up. -/
theorem wit_FabricEvents_order :
    (∀ n ∈ [8, (0 : Nat)], let pk := { req 2 0 0 0 [1] with seq := if n = 8 then 9 else 255 }
      ForUs (upS { next := some n }) 0 pk ∧ (upS { next := some n }).noService = false ∧ n < pk.seq ∧ pk.seq < n + 256) ∧
    (let s := { upS {} with pkg := { (upS {}).pkg with reset := some (5, 0) } }
     s.noService = true ∧ (s.pt 0).lst = 2 ∧ (req 2 0 0 0 [1]).sgdn ≠ s.gdn) ∧
    (let m := ((podNeighbours 0)[2]?).getD 0
     ∀ st ∈ [0, 2, 3], let s := portS {}
     let s := { s with fab := { port := [(podPort s.pkg.member m, { lst := st }), (31, { lst := 2 })] } }
     m ≠ s.gdn ∧ (s.pt 31).lst = 2 ∧ (s.pt (podPort s.pkg.member (m % 2 ^ 10))).lst = st) := by
  refine ⟨?_, by decide +kernel⟩
  intro n hn
  simp only [List.mem_cons, List.not_mem_nil, or_false] at hn
  rcases hn with rfl | rfl <;>
    exact ⟨⟨by decide +kernel, by decide +kernel, by decide +kernel, by decide +kernel⟩, by decide +kernel, by decide +kernel, by decide +kernel⟩

/-- A thread waits for a request with tag 3 to device 5. -/
def outS (p : Pend) (r : Nat) : State :=
  let s := thrS { pend := [{ p with src := .fabric 3 }] }
  { s with fab := { port := [(0, { lst := 2 })], out := [{ pk := { req 0 2 0 0 [] with sgdn := 0, dgdn := 5 }, owner := .thread 2048, resends := r }] } }
theorem wit_FabricEvents_answers : ∀ x ∈ [((pend0 : Pend), 0), ({ pend0 with w := 4 }, 0), (pend0, 3)], ∀ k ∈ [1, 8, 9],
    ∃ r, AnswersTo (outS x.1 x.2) 0 (req k (if k = 8 then 1 else 2) 0 0 []) r ∧ r.owner = .thread 2048 ∧ r.resends = x.2 ∧ r.pk.dgdn = 5 ∧
      AwaitsTag (outS x.1 x.2) 2048 3 { x.1 with src := .fabric 3 } := by
  intro x hx k hk
  refine ⟨{ pk := { req 0 2 0 0 [] with sgdn := 0, dgdn := 5 }, owner := .thread 2048, resends := x.2 }, ⟨?_, ?_, ?_⟩, rfl, rfl, rfl, ?_⟩ <;>
    simp only [List.mem_cons, List.not_mem_nil, or_false] at hx hk <;> rcases hx with rfl | rfl | rfl <;> rcases hk with rfl | rfl | rfl <;>
    first | exact ⟨by decide +kernel, by decide +kernel, by decide +kernel, by decide +kernel⟩ | exact ⟨by decide +kernel, by decide +kernel⟩ | decide +kernel
theorem wit_FabricEvents_times :
    (ForUs (upS {}) 0 (req 8 1 0 0 []) ∧ (upS {}).fab.out = []) ∧
    (∀ a ∈ [990000, 990001], let s := { ctxS {} with fab := { port := [(4, { lst := 2 })], cust := [{ pk := { req 2 0 0 0 [] with sgdn := 0 }, port := 4, tries := 0, at' := a, out := true }] } }
      (a = 990000 → a + s.pkg.ctmo * 1000 ≤ s.time ∧ (s.pt 4).lst = 2) ∧ (a = 990001 → s.time < a + s.pkg.ctmo * 1000) ∧ (s.pt 5).lst ≠ 2) ∧
    (∀ a ∈ [900001, 900000, 800000], (a = 900001 → (ctxS {}).time < a + (ctxS {}).pkg.dline * 1000) ∧
      (a = 900000 → a + (ctxS {}).pkg.dline * 1000 ≤ (ctxS {}).time ∧ (ctxS {}).time < a + 2 * ((ctxS {}).pkg.dline * 1000)) ∧
      (a = 800000 → a + 2 * ((ctxS {}).pkg.dline * 1000) ≤ (ctxS {}).time)) := by
  refine ⟨⟨⟨by decide +kernel, by decide +kernel, by decide +kernel, by decide +kernel⟩, by decide +kernel⟩, by decide +kernel, by decide +kernel⟩

/-- Slot 2 on queue pairs with rank 0, a local piece of 4 bytes at 0x12000. -/
theorem wit_ScheduleEvents :
    (let x : TSlot := { st := 3, armedAt := 1 }
     let s := { slotS x with slot := [(2, x), (3, { st := 3, armedAt := 2 })] }
     (∀ y ∈ s.slot, y.2.eng = 0 → y.2.st ≠ 4 ∧ y.2.st ≠ 5) ∧ s.sl 2 = x ∧ (2, x) ∈ s.slot ∧
     (∀ y ∈ s.slot, y.2.eng = 0 → y.2.st = 3 → y ≠ (2, x) → x.armedAt < y.2.armedAt)) ∧
    (∀ v ∈ [4, 5], let x : TSlot := { st := 5, wait := .signal 2 5, sig := [0, 0, v, 0, 0, 0, 0, 0, 0, 0, 0, 0, 0, 0, 0, 0] }
      (slotS x).sl 2 = x ∧ (v = 5 → 5 ≤ x.sig.getD 2 0) ∧ (v = 4 → x.sig.getD 2 0 < 5)) ∧
    (let x : TSlot := { st := 5, wait := .bar 0, size := 2, sig := [0, 0, 0, 0, 0, 0, 0, 0, 0, 0, 0, 0, 0, 0, 0, 1] }
     (slotS x).sl 2 = x ∧ x.sig.getD 15 0 % 8 ≠ 0) ∧
    (let x : TSlot := { st := 5, wait := .recv 0x12000 }
     (slotS x).sl 2 = x ∧ x.ops = [] ∧ x.todo = []) ∧
    (∀ p ∈ [none, some (5, 6)], let x : TSlot := { st := 4, wait := .fin none, pend := p }
      (slotS x).sl 2 = x ∧ x.ops = [] ∧ x.todo = [] ∧ x.armer = none) ∧
    (let x : TSlot := { st := 5 }
     let s := { slotS x with pkg := { (slotS x).pkg with twdog := 1 }, time := 1001 }
     s.sl 2 = x ∧ s.pkg.twdog ≠ 0 ∧ x.waitAt + s.pkg.twdog * 1000 < s.time) := by decide +kernel
theorem wit_ScheduleEvents_pairs :
    OnPair (slotS slot0) 2 0 0 slot0 ∧ OnPair (slotS slot0) 2 3 0 slot0 ∧ pieceAt (slotS slot0) slot0 1 0x12000 4 0x1002000 false true = true ∧
    pieceAt (slotS slot0) slot0 1 0x12000 4 0x1002000 true false = true ∧ (slot0.peer 0).2.1 ∈ slot0.comm.map (·.2.1) ∧
    (let o : TOp := { eth := true, k := 7 }
     let x := { slot0 with ops := [o] }
     (slotS x).sl 2 = x ∧ x.ops = [o] ∧ o.eth = true ∧ o.rank = 0) := by decide +kernel
theorem wit_ScheduleEvents_steps :
    (({} : Ctx).step = none ∧ (5 : DWord).toNat ≤ (5 : DWord).toNat ∧ (5 : DWord).toNat < (6 : DWord).toNat) ∧
    (∀ term ∈ [0, 2 ^ 26 - 1, 5 * 2 ^ 28 + 1], let c : Ctx := { closed := [(5, 0, 1, term)] }
      c.closed = [(5, 0, 1, term)] ∧ c.tracebase = 0 ∧
      (term = 0 → term % 2 ^ 26 = 0) ∧ (term = 2 ^ 26 - 1 → term / 2 ^ 28 = (ctxS c).gdn ∧ term / 2 ^ 38 = (ctxS c).pkg.pod ∧ (Tbl.get {} (ctxS c).edges term).kind = 0) ∧
      (term = 5 * 2 ^ 28 + 1 → term % 2 ^ 26 ≠ 0 ∧ term / 2 ^ 28 ≠ (ctxS c).gdn ∧ term / 2 ^ 38 = (ctxS c).pkg.pod ∧ c.answers = [] ∧
        (ctxS c).outTo (term / 2 ^ 28) < 256 ∧ (ctxS c).fab.out = [])) := by decide +kernel

/-- A trace buffer at 0x11000, of 2^7 units, on a Pinned page, and one edge record of this device. -/
def walkS : State :=
  let c : Ctx := { state := 4, tracebase := 0x11000, traceRec := true, closed := [(7, 500, 900, 5)] }
  let s := { pinS c with edges := [(5, { kind := 1, time := 600 })] }
  withBytes s 0x1001008 8 (1 + 2 ^ 32 * 7)
/-- A walk of one entry, to a root; and its room. -/
theorem wit_ScheduleEvents_walk : ∃ es, es.length = 1 ∧ Walk walkS 0 500 0 5 es 1 :=
  ⟨_, rfl, .entry 0 5 { kind := 1, time := 600 } 500 [] 1 (by decide) (by decide) (by decide +kernel) (by decide +kernel) (by decide)
    (by unfold predAt; rw [if_pos (by decide)]) (.root 1 0 (by decide) (by decide))⟩
theorem wit_ScheduleEvents_room : TraceRoom walkS 0 2 7 0 (fun k => 0x1001040 + 8 * k) 0x1001004 := by
  have ht : ∀ k, k < 8 → held walkS (0x11000 + 64 + 32 * ((0 + k / 4) % 2 ^ 7) + 8 * (k % 4)) (0x1001040 + 8 * k) = true ∧
    walkS.hwWaits 0 ((0x11000 + 64 + 32 * ((0 + k / 4) % 2 ^ 7) + 8 * (k % 4)) % 2 ^ 56) = none ∧ walkS.inHst (0x1001040 + 8 * k) 8 = false := by
    decide +kernel
  have hb : (walkS.cx 0).tracebase = 0x11000 := by decide +kernel
  have ha : (walkS.cx 0).asid = 0 := by decide +kernel
  have hl : ∀ va loc, held walkS va loc = true → walkS.hwLoc 0 (va % 2 ^ 56) true = (some loc, walkS) := by
    intro va loc h
    unfold held at h
    split at h
    · next l t he => rw [he, (of_decide_eq_true h).1, (of_decide_eq_true h).2]
    · cases h
  have hp : ∀ va ∈ [0x11000, 0x11040, 0x11060], ∃ b h, walkS.heldOf 0 va = some (b, h) ∧ h.st = 2 := by
    intro va hv
    refine ⟨0x10000, { st := 2, pte := .ofNat 64 (1 + 2 + 32 + 64 + 0x1000000) }, ?_, rfl⟩
    revert va
    decide +kernel
  refine { on := ⟨by decide +kernel, 1 + 2 ^ 32 * 7, ?_, by decide, by decide, by decide, by decide⟩, dropped := by decide +kernel,
           room := ⟨0, by decide, by decide, ?_, by decide⟩, pinned := ?_, reached := ?_, index := ?_, apart := ⟨by omega, by omega⟩,
           clean := by decide +kernel }
  · decide +kernel
  · decide +kernel
  · rw [hb, ha]
    refine ⟨hp _ (by simp), fun i hi => ?_⟩
    rcases i with _ | _ | i
    · exact hp _ (by simp)
    · exact hp _ (by simp)
    · omega
  · intro k hk
    rw [hb]
    exact ⟨hl _ _ (ht k hk).1, (ht k hk).2⟩
  · rw [hb]
    exact ⟨hl _ _ (by decide +kernel), by decide +kernel⟩
/-- An arrival at a Vacated page. -/
theorem wit_ScheduleEvents_live :
    let s := { slotS slot0 with held := [(heldKey 0 0x10000, { st := 6, pte := .ofNat 64 (1 + 2 + 32 + 64 + 0x1000000) })] }
    s.inHst 0x1002000 4 = false ∧ OnPair s 2 0 0 slot0 ∧ ∀ k, k < 4 → (match s.engAcs 0 0 (0x12000 + k) false true true with
      | (.ok _ p, t) => decide (p = .loc (0x1002000 + k) ∧ t = s)
      | _ => false) = true := by decide +kernel

/-- Reset begins with its tables tidy and its memory canonical. -/
theorem wit_TablesStayTidy : Tidy State.reset ∧ Memory.wf State.reset.mem = true :=
  ⟨{ threads := rfl, records := rfl, cores := rfl, contexts := rfl, locks := List.nodup_nil, marks := List.nodup_nil
     groups := fun _ _ h => (by cases h), replays := fun _ _ h => (by cases h), stalls := fun _ h => (by cases h)
     parked := fun _ _ h => (by cases h), waiting := fun _ _ _ h => (by cases h) }, rfl⟩
/-- Every opcode has a well-formed word, and every Truss opcode. -/
theorem wit_DecodeEncode : (coreWords.all fun x => x.2.wf && x.2.core.isSome) = true ∧ (trussWords.all fun x => x.2.wf && x.2.truss.isSome) = true := by
  decide +kernel

/-- Core 0 of a state turns to its group, which is in progress or stands aside. -/
def turned (s : State) (g : Group) : State :=
  State.modCo { State.undefer { s with agenda := [] } 0 with turn := 0 } 0 fun x => { x with grp := some g, last := some g, parked := [] }
/-- `demo` with its group aside. -/
def asideS (i : Instr) : State := (demo i).modCo 0 fun x => { x with grp := none, parked := [grp i] }
/-- The word at a slot, as the step reads it. -/
def readsWord (i : Instr) (s : State) : Bool :=
  let g := grp i
  match State.reach (turned s g) 1024 1 true false (pcAddr g.pc) g.pc with
  | (.ok x, s1) => pteX x.pte && !pteSo x.pte && decide (x.held.st ≠ 6) &&
      (match x.place s1 (pcAddr g.pc) with | .loc n => (match decodeWord (.ofNat 64 (s1.rd n 8)) with | .ok j => decide (j = i) | _ => false) | _ => false)
  | _ => false
theorem wit_StepRuns :
    (∀ s ∈ [demo (.exit exitW), asideS (.exit exitW)], readsWord (.exit exitW) s = true ∧ s.agenda = [.core 0] ∧ s.mg.boot = .running ∧
      (s.di (coreDie 0)).relock = false) ∧
    (((demo (.exit exitW)).co 0).grp = some (grp (.exit exitW)) ∧ ((demo (.exit exitW)).co 0).parked = [] ∧ ((demo (.exit exitW)).co 0).last = none) ∧
    (((asideS (.exit exitW)).co 0).grp = none ∧ ((asideS (.exit exitW)).co 0).parked = [grp (.exit exitW)]) ∧
    pcAddr (grp (.exit exitW)).pc < spliceVa ∧
    -- a clause's issue: no group, or one that stalled; and a core whose clock relocks
    (((freshS 1).co 0).grp = none ∧ ((freshS 1).co 0).parked = []) ∧
    (let s := (demo (.exit exitW)).modCo 0 fun x => { x with last := some (grp (.exit exitW)) }
     (s.co 0).grp = some (grp (.exit exitW)) ∧ (s.co 0).last = some (grp (.exit exitW)) ∧ s.awaitsPage 0 = false) ∧
    (({ demo (.exit exitW) with die := [(0, { relock := true })] } : State).di (coreDie 0)).relock = true ∧
    -- an engine's word, and a packet
    (let s := { slotS { slot0 with words := [0, 0, .ofNat 64 (2 * 2 ^ 58)] } with agenda := [.engine 0] }
     s.slotOn 0 = some 2 ∧ (s.sl 2).words[(s.sl 2).pc]? = some (.ofNat 64 (2 * 2 ^ 58)) ∧ (decodeTruss (.ofNat 64 (2 * 2 ^ 58))).isSome = true) ∧
    ((packetS.qv 1).qst ≠ 3 ∧ (match packetS.fetchPacket 1 with | .ok _ => true | _ => false) = true) ∧ isEvent .bucketTick = true := by decide +kernel
/-- A word in the splice cache. -/
theorem wit_StepRuns_splice :
    let e : SplE := { id := 1, cid := 0, base := spliceVa, codeP := 0, codeC := 0, pair := 0, text := [placeHdr 0xD0, .ofNat 64 (0xD0 * 2 ^ 56)], map := [], rp := 0, rc := 0
                      sp := 0, sc := 0, kidP := 0, kidC := 0, entry := 0, frags := [], tilesC := [], pins := 1, valid := true, tags := [] }
    let g : Group := { addr := spliceVa, hdr := placeHdr 0xD0, slot := 1, members := [1024] }
    let s := { demo (.exit exitW) with splices := [e] }
    spliceVa ≤ pcAddr g.pc ∧ s.spliceAt (s.cidOf 1024) (pcAddr g.pc) = some e ∧
    isOk (decodeWord (e.text.getD ((pcAddr g.pc - e.base) / 8) 0)) (.nop ⟨.always, .reg 0, .reg 0, 0⟩) = true := by decide +kernel
/-- The lowest and the highest unassigned opcode. -/
theorem wit_UnassignedOpcodes : ([0x2D, 0xFF].all fun op =>
    let s := State.reset.placeWord 64 (op * 2 ^ 56)
    decide (s.agenda = [.core 0] ∧ s.mg.boot = .running ∧ (s.di (coreDie 0)).relock = false ∧ (s.co 0).parked = [] ∧ (s.co 0).last = none) &&
    match (s.co 0).grp with
      | some g => decide (g.members.Nodup ∧ (∀ m ∈ g.members, s.resident m = true ∧ (s.th m).inh = false)) &&
        (match (State.fetchWord (turned s g) (g.members.headD 0) g.pc).1 with | .word w => decide (w.toNat / 2 ^ 56 = op) | _ => false)
      | none => false) = true := by decide +kernel

end Sys2Proof.Tests
end

/-!
PROOF. The unassigned opcodes (R90), and what their statement rests on: a core's move up to the word at its slot (R73, R106), what the fetch of
the word leaves (R258, R416), and the exceptions that a slot raises (R106, R115).
-/
namespace Sys2Proof.Machine

/-! ### Tables and cores written twice

A group that stood aside is taken from its list and put in progress by two writes of one core. -/

theorem Tbl.del_del {α : Type} (t : Tbl α) (n : Nat) : Tbl.del (Tbl.del t n) n = Tbl.del t n := by
  induction t with
  | nil => rfl
  | cons e t ih => by_cases h : e.1 = n <;> simp [Tbl.del, h, ih]

theorem Tbl.del_ins {α : Type} (t : Tbl α) (n : Nat) (x : α) : Tbl.del (Tbl.ins t n x) n = Tbl.del t n := by
  induction t with
  | nil => simp [Tbl.ins, Tbl.del]
  | cons e t ih => by_cases h : n ≤ e.1 <;> simp [Tbl.ins, Tbl.del, h, ih]

theorem Tbl.set_set {α : Type} [DecidableEq α] (d : α) (t : Tbl α) (n : Nat) (x y : α) :
    Tbl.set d (Tbl.set d t n x) n y = Tbl.set d t n y := by
  have h : Tbl.del (Tbl.set d t n x) n = Tbl.del t n := by
    unfold Tbl.set
    split
    · exact Tbl.del_del t n
    · rw [Tbl.del_ins, Tbl.del_del]
  rw [Tbl.set, h]; rfl

theorem State.modCo_modCo (s : State) (c : Nat) (f f' : Core → Core) : (s.modCo c f).modCo c f' = s.modCo c fun x => f' (f x) := by
  show State.setCo _ c (f' ((s.modCo c f).co c)) = s.setCo c (f' (f (s.co c)))
  rw [State.modCo_co]
  show ({ s with core := Tbl.set {} (Tbl.set {} s.core c _) c _ } : State) = _
  rw [Tbl.set_set]; rfl

/-! ### What a change of threads alone leaves -/

/-- Only threads differ. -/
structure ThreadsOnly (s t : State) : Prop where
  same : t = { s with thr := t.thr }

theorem ThreadsOnly.refl (s : State) : ThreadsOnly s s := ⟨rfl⟩

theorem ThreadsOnly.trans {s t u : State} (h : ThreadsOnly s t) (k : ThreadsOnly t u) : ThreadsOnly s u := by
  constructor; rw [k.same, h.same]

theorem ThreadsOnly.foldl {β : Type} {f : State → β → State} (h : ∀ s x, ThreadsOnly s (f s x)) (l : List β) (s : State) :
    ThreadsOnly s (l.foldl f s) := by
  induction l generalizing s with
  | nil => exact .refl s
  | cons x l ih => exact (h s x).trans (ih _)

theorem ThreadsOnly.mem {s t : State} (h : ThreadsOnly s t) : t.mem = s.mem := by rw [h.same]

theorem ThreadsOnly.resident {s t : State} (h : ThreadsOnly s t) (m : Nat) : t.resident m = s.resident m := by rw [h.same]; rfl

theorem ThreadsOnly.co {s t : State} (h : ThreadsOnly s t) (c : Nat) : t.co c = s.co c := by rw [h.same]; rfl

theorem ThreadsOnly.original {s t : State} (h : ThreadsOnly s t) (m : Nat) (pc : DWord) : t.original m pc = s.original m pc := by
  rw [h.same]; rfl

theorem ThreadsOnly.origTval {s t : State} (h : ThreadsOnly s t) (m c : Nat) (v pc : DWord) :
    t.origTval m c v pc = s.origTval m c v pc := by
  rw [h.same]; rfl

theorem State.modTh_threadsOnly (s : State) (m : Nat) (f : Thr → Thr) : ThreadsOnly s (s.modTh m f) := ⟨rfl⟩

theorem State.modRes_threadsOnly (s : State) (m : Nat) (f : Thr → Thr) : ThreadsOnly s (s.modRes m f) := by
  unfold State.modRes
  split
  · exact s.modTh_threadsOnly m f
  · exact .refl s

/-! ### Exceptions of a slot (R106, R115) -/

/-- A thread without its place, its state and its deferral. -/
def Thr.unplaced (t : Thr) : Thr := { t with pc := 0, st := .ready, deferred := false }

theorem Thr.inh_of_unplaced {x y : Thr} (h : x.unplaced = y.unplaced) : x.inh = y.inh := (congrArg Thr.inh h : x.unplaced.inh = _)

theorem trapped_unplaced {x u : Thr} {o : Bool × DWord × DWord} {code : Nat} {tval pc : DWord} :
    Trapped x.unplaced u o code tval pc ↔ Trapped x u o code tval pc :=
  ⟨fun ⟨saved, mode, waits, latches, rest⟩ => ⟨saved, mode, waits, latches, rest⟩,
    fun ⟨saved, mode, waits, latches, rest⟩ => ⟨saved, mode, waits, latches, rest⟩⟩

/-- What an exception saves of a thread does not turn on where the thread stood. -/
theorem trapped_of_unplaced {x y u : Thr} {o : Bool × DWord × DWord} {code : Nat} {tval pc : DWord} (h : x.unplaced = y.unplaced)
    (k : Trapped x u o code tval pc) : Trapped y u o code tval pc := trapped_unplaced.mp (h ▸ trapped_unplaced.mpr k)

theorem State.takeTrap_threadsOnly (s : State) (m code : Nat) (tval pc : DWord) (h : (s.th m).inh = false) :
    ThreadsOnly s (s.takeTrap m code tval pc) := by
  unfold State.takeTrap
  simp only [h]
  exact ⟨rfl⟩

theorem State.takeTrap_th_ne (s : State) (m code : Nat) (tval pc : DWord) (h : (s.th m).inh = false) {k : Nat} (hk : k ≠ m) :
    (s.takeTrap m code tval pc).th k = s.th k := by
  unfold State.takeTrap
  simp only [h]
  exact s.setTh_th_ne m _ hk

theorem valid_getD_cleared (l : List Latch) (k : Nat) : ((l.map fun x : Latch => { x with valid := 0 }).getD k {}).valid = 0 := by
  rw [List.getD_eq_getElem?_getD, List.getElem?_map]
  cases l[k]? <;> rfl

/-- A thread outside a handler takes its exception (R115). -/
theorem State.takeTrap_trapped (s : State) (m code : Nat) (tval pc : DWord) (h : (s.th m).inh = false) :
    Trapped (s.th m) ((s.takeTrap m code tval pc).th m) (s.original m pc) code (s.origTval m code tval pc) pc := by
  unfold State.takeTrap
  simp only [h, Bool.false_eq_true, if_false, State.setTh_th]
  exact ⟨⟨rfl, rfl, rfl, rfl, rfl, rfl, rfl⟩, ⟨rfl, rfl, rfl⟩, ⟨rfl, rfl⟩, ⟨rfl, valid_getD_cleared _⟩, ⟨rfl, rfl⟩, fun _ => rfl, rfl, rfl⟩

/-- The causes of a slot are taken one after the other, each by its own thread. -/
theorem State.takeTraps_trapped (pc : DWord) (traps : List (Nat × Cause)) (s : State) (hn : (traps.map (·.1)).Nodup)
    (h : ∀ x ∈ traps, s.resident x.1 = true ∧ (s.th x.1).inh = false) :
    let t := traps.foldl (fun s x => if s.resident x.1 then s.takeTrap x.1 x.2.1 x.2.2 pc else s) s
    ThreadsOnly s t ∧ (∀ m, m ∉ traps.map (·.1) → t.th m = s.th m) ∧
      ∀ x ∈ traps, Trapped (s.th x.1) (t.th x.1) (s.original x.1 pc) x.2.1 (s.origTval x.1 x.2.1 x.2.2 pc) pc := by
  induction traps generalizing s with
  | nil => exact ⟨.refl s, fun _ _ => rfl, fun _ hx => absurd hx List.not_mem_nil⟩
  | cons y l ih =>
    obtain ⟨hy, hl⟩ := List.nodup_cons.mp (List.map_cons ▸ hn)
    obtain ⟨hres, hinh⟩ := h y List.mem_cons_self
    have ne {x : Nat × Cause} (hx : x ∈ l) : x.1 ≠ y.1 := fun e => hy (e ▸ List.mem_map_of_mem hx)
    have only := s.takeTrap_threadsOnly y.1 y.2.1 y.2.2 pc hinh
    have keep {x : Nat × Cause} (hx : x ∈ l) := s.takeTrap_th_ne y.1 y.2.1 y.2.2 pc hinh (ne hx)
    obtain ⟨only', others, taken⟩ := ih (s.takeTrap y.1 y.2.1 y.2.2 pc) hl fun x hx => by
      rw [only.resident, keep hx]; exact h x (List.mem_cons_of_mem _ hx)
    dsimp only
    rw [List.foldl_cons, if_pos hres]
    refine ⟨only.trans only', fun m hm => ?_, fun x hx => ?_⟩
    · rw [List.map_cons, List.mem_cons, not_or] at hm
      rw [others m hm.2, s.takeTrap_th_ne _ _ _ _ hinh hm.1]
    · rcases List.mem_cons.mp hx with rfl | hx
      · rw [others _ hy]; exact s.takeTrap_trapped _ _ _ _ hinh
      · have := taken x hx
        rwa [keep hx, only.original, only.origTval] at this

/-- A slot that traps ends the core's group, and changes nothing else but threads; each thread with a cause takes it at the slot (R106). -/
theorem State.slotTrap_trapped (s : State) (c : Nat) (g : Group) (traps : List (Nat × Cause)) (hn : (traps.map (·.1)).Nodup)
    (h : ∀ x ∈ traps, s.resident x.1 = true ∧ (s.th x.1).inh = false) :
    let t := s.slotTrap c g traps
    ThreadsOnly (s.endGroup c) t ∧
      ∀ x ∈ traps, Trapped (s.th x.1) (t.th x.1) (s.original x.1 g.pc) x.2.1 (s.origTval x.1 x.2.1 x.2.2 g.pc) g.pc := by
  let r := g.members.foldl (fun s m => s.modRes m fun t => { t with pc := g.pc, st := .ready }) (s.endGroup c)
  have only : ThreadsOnly (s.endGroup c) r := .foldl (fun s m => s.modRes_threadsOnly m _) _ _
  have placed (m : Nat) : (r.th m).unplaced = (s.th m).unplaced := by
    refine foldl_keep (p := fun (s : State) => (s.th m).unplaced) (fun s k => ?_) _ _
    exact s.view_modRes Thr.unplaced k m _ fun _ => rfl
  obtain ⟨only', -, taken⟩ := State.takeTraps_trapped g.pc traps r hn fun x hx => by
    obtain ⟨hres, hinh⟩ := h x hx
    exact ⟨(only.resident _).trans hres, (Thr.inh_of_unplaced (placed x.1)).trans hinh⟩
  refine ⟨only.trans only', fun x hx => ?_⟩
  have := trapped_of_unplaced (placed x.1) (taken x hx)
  rwa [only.original, only.origTval] at this

/-! ### A core's move up to the word at the slot (R73, R106) -/

theorem State.undeferGang_threadsOnly (s : State) (k : Nat) : ThreadsOnly s (s.undeferGang k) := by
  unfold State.undeferGang
  split
  · exact .refl s
  · exact .foldl (fun s m => s.modTh_threadsOnly m _) _ _

theorem State.undefer_threadsOnly (s : State) (c : Nat) : ThreadsOnly s (s.undefer c) :=
  .foldl (fun s k => s.undeferGang_threadsOnly k) _ _

theorem State.undeferGang_unplaced (s : State) (k m : Nat) : ((s.undeferGang k).th m).unplaced = (s.th m).unplaced := by
  unfold State.undeferGang
  split
  · rfl
  · refine foldl_keep (p := fun (s : State) => (s.th m).unplaced) (fun s k => ?_) _ _
    exact s.view_modTh Thr.unplaced k m _ fun _ => rfl

/-- The end of deferrals (R107) leaves all else of a thread. -/
theorem State.undefer_unplaced (s : State) (c m : Nat) : ((s.undefer c).th m).unplaced = (s.th m).unplaced :=
  foldl_keep (p := fun (s : State) => (s.th m).unplaced) (fun s k => s.undeferGang_unplaced k m) _ _

/-- A state whose core has turned to the slot of a group. -/
def State.turnTo (s : State) (c : Nat) (g : Group) (pk : List Group) : State :=
  State.modCo { s.undefer c with turn := c } c fun x => { x with grp := some g, last := some g, parked := pk }

/-- A state whose next move is no longer waiting. -/
def State.popped (s : State) (rest : List Move) : State := { s with agenda := rest }

theorem State.turnTo_unplaced (s : State) (c : Nat) (g : Group) (pk : List Group) (m : Nat) :
    ((s.turnTo c g pk).th m).unplaced = (s.th m).unplaced := s.undefer_unplaced c m

theorem State.turnTo_mem (s : State) (c : Nat) (g : Group) (pk : List Group) : (s.turnTo c g pk).mem = s.mem :=
  (s.undefer_threadsOnly c).mem

theorem State.turnTo_resident (s : State) (c : Nat) (g : Group) (pk : List Group) (m : Nat) :
    (s.turnTo c g pk).resident m = s.resident m := (s.undefer_threadsOnly c).resident m

theorem State.turnTo_original (s : State) (c : Nat) (g : Group) (pk : List Group) (m : Nat) (pc : DWord) :
    (s.turnTo c g pk).original m pc = s.original m pc := (s.undefer_threadsOnly c).original m pc

/-- What a core's move comes to, by what it found at a slot. -/
def slotNext : Except State (Instr × State) → Next
  | .ok (i, s) => .run i s
  | .error s => .done s

theorem State.slotMove_eq (s : State) (c : Nat) (g : Group) :
    s.slotMove c g = slotNext ((s.modCo c fun x => { x with grp := some g, last := some g }).slotFetch c g) := by
  unfold State.slotMove
  cases State.slotFetch _ c g <;> rfl

/-- The move of a core that turns to a group comes to the word at the group's slot. -/
theorem State.coreMove_turns {s : State} {c : Nat} {g : Group} {pk : List Group} (hr : (s.di (coreDie c)).relock = false)
    (ht : Turns s c g pk) :
    s.coreMove c = slotNext ((s.turnTo c g pk).slotFetch c g) := by
  have only := s.undefer_threadsOnly c
  have hco : ({ s.undefer c with turn := c } : State).co c = s.co c := only.co c
  have hdi : ({ s.undefer c with turn := c } : State).di (coreDie c) = s.di (coreDie c) := by rw [only.same]; rfl
  have haw : ({ s.undefer c with turn := c } : State).awaitsPage c = s.awaitsPage c := by rw [only.same]; rfl
  unfold State.coreMove
  dsimp only
  rw [hdi, hr, hco, haw, if_neg Bool.false_ne_true]
  rcases ht with ⟨hg, hp, hturn⟩ | ⟨hg, hp⟩
  · have hstall : ¬((s.co c).last = some g ∧ (!s.awaitsPage c) = true) := by
      rcases hturn with h | h <;> simp [h]
    have hsame : (State.modCo { s.undefer c with turn := c } c fun x => { x with grp := some g, last := some g }) = s.turnTo c g pk := by
      unfold State.turnTo State.modCo
      rw [hco, ← hp]
    rw [hg]
    dsimp only
    rw [if_neg hstall, State.slotMove_eq, hsame]
  · rw [hg, hp]
    dsimp only
    rw [State.slotMove_eq, State.modCo_modCo, State.turnTo]

/-- A step whose move is that of a core that turns to a group. -/
theorem step_turns {s : State} {rest : List Move} {c : Nat} {g : Group} {pk : List Group} (ha : s.agenda = .core c :: rest)
    (hb : s.mg.boot = .running) (hr : (s.di (coreDie c)).relock = false) (ht : Turns s c g pk) :
    step s = match ((s.popped rest).turnTo c g pk).slotFetch c g with
      | .ok (i, t) => exec i t
      | .error t => .next t := by
  have hmove : s.nextMove = (s.popped rest).coreMove c := by
    unfold State.nextMove
    rw [ha]
    exact if_pos hb
  have ht' : Turns (s.popped rest) c g pk := ht
  rw [step, hmove, State.coreMove_turns (s := s.popped rest) hr ht']
  cases ((s.popped rest).turnTo c g pk).slotFetch c g <;> rfl

/-! ### What the fetch of a word leaves (R73, R258, R416) -/

/-- Only what a fetch may find differs: marks, records and tags of lines in error with their log (R256, R416), translations, and the free values
spent. -/
structure Fetched (s t : State) : Prop where
  same : t = { s with poison := t.poison, held := t.held, tags := t.tags, mg := t.mg, tlb := t.tlb, fresh := t.fresh }

theorem Fetched.refl (s : State) : Fetched s s := ⟨rfl⟩

theorem Fetched.trans {s t u : State} (h : Fetched s t) (k : Fetched t u) : Fetched s u := by
  constructor; rw [k.same, h.same]

theorem Fetched.foldl {β : Type} {f : State → β → State} (h : ∀ s x, Fetched s (f s x)) (l : List β) (s : State) :
    Fetched s (l.foldl f s) := by
  induction l generalizing s with
  | nil => exact .refl s
  | cons x l ih => exact (h s x).trans (ih _)

theorem Fetched.mem {s t : State} (h : Fetched s t) : t.mem = s.mem := by rw [h.same]

theorem Fetched.th {s t : State} (h : Fetched s t) (m : Nat) : t.th m = s.th m := by rw [h.same]; rfl

theorem Fetched.resident {s t : State} (h : Fetched s t) (m : Nat) : t.resident m = s.resident m := by rw [h.same]; rfl

theorem Fetched.original {s t : State} (h : Fetched s t) (m : Nat) (pc : DWord) : t.original m pc = s.original m pc := by
  rw [h.same]; rfl

theorem Looked.fetched {s t : State} (h : Looked s t) : Fetched s t := by constructor; rw [h.same]

theorem State.ras_fetched (s : State) (kind unit num loc : Nat) : Fetched s (s.ras kind unit num loc) := ⟨rfl⟩

theorem State.markSector_fetched (s : State) (k : Nat) : Fetched s (s.markSector k) := by
  unfold State.markSector
  dsimp only
  refine Fetched.trans ?_ (.foldl (fun s c => .foldl (fun s x => ?_) _ _) _ _)
  · split <;> exact ⟨rfl⟩
  · split
    · exact .refl s
    · split <;> exact ⟨rfl⟩

theorem State.fill_fetched (s : State) (loc : Nat) : Fetched s (s.fill loc) := by
  unfold State.fill
  split
  · have untag (line : Nat) : Fetched s { s with tags := Tbl.set none s.tags line none } := ⟨rfl⟩
    exact (((((untag _).trans (State.markSector_fetched _ _)).trans (State.markSector_fetched _ _)).trans
      (State.markSector_fetched _ _)).trans (State.markSector_fetched _ _)).trans (State.ras_fetched _ _ _ _ _)
  · exact .refl s

/-- A fetch leaves memory and threads; a line whose tag does not match is marked, not changed (R416). -/
theorem State.fetchWord_fetched (s : State) (tid : Nat) (pc : DWord) : Fetched s (s.fetchWord tid pc).2 := by
  unfold State.fetchWord
  dsimp only
  split
  · split <;> exact .refl s
  · have looked := (s.reach_looked tid 1 true false (pcAddr pc) pc).fetched
    split <;> (rename_i h; rw [h] at looked)
    · exact looked
    · exact looked
    · repeat' split
      · exact looked
      · exact looked
      · exact looked.trans (State.fill_fetched _ _)
      · exact looked

/-! ### Unassigned opcodes (R90) -/

/-- The unassigned opcodes, as R90 lists them. -/
def Unassigned (op : Nat) : Prop :=
  (0x2D ≤ op ∧ op ≤ 0x3F) ∨ (0x5B ≤ op ∧ op ≤ 0x7F) ∨ (0x88 ≤ op ∧ op ≤ 0x8F) ∨ (0x9E ≤ op ∧ op ≤ 0xAF) ∨ (0xBB ≤ op ∧ op ≤ 0xBF) ∨
    (0xC4 ≤ op ∧ op ≤ 0xCF) ∨ (0xDC ≤ op ∧ op ≤ 0xDF) ∨ (0xEB ≤ op ∧ op ≤ 0xFF)

theorem opFmt_unassigned {op : Nat} (h : Unassigned op) : opFmt op = none := by
  rcases h with h | h | h | h | h | h | h | h <;> simp (disch := omega) only [opFmt, if_neg, if_pos]

theorem decodeWord_unassigned {w : DWord} (h : Unassigned (w.toNat / 2 ^ 56)) : decodeWord w = .error .opcode := by
  rw [decodeWord, wordOp, opFmt_unassigned h]

/-- A word with an unassigned opcode fails in its slot with ILLEGAL_OPCODE before its clause is looked at. -/
theorem State.slotFetch_illOp {s t : State} {c : Nat} {g : Group} {w : DWord} (hw : s.fetchWord (g.members.headD 0) g.pc = (.word w, t))
    (h : Unassigned (w.toNat / 2 ^ 56)) :
    s.slotFetch c g = .error (t.slotTrap c g (g.members.map fun m => (m, cIllOp, w))) := by
  unfold State.slotFetch
  rw [hw]
  dsimp only
  rw [decodeWord_unassigned h]
  rfl

theorem State.origTval_illOp (s : State) (m : Nat) (v pc : DWord) : s.origTval m cIllOp v pc = v := by
  simp [State.origTval, cIllOp, cEccReg, cIllOpnd]

/-- A fetched word with an unassigned opcode ends the group, leaves memory, and gives every member the exception. -/
theorem State.slotFetch_unassigned {s t : State} {c : Nat} {g : Group} {w : DWord} (hn : g.members.Nodup)
    (hm : ∀ m ∈ g.members, s.resident m = true ∧ (s.th m).inh = false)
    (hw : s.fetchWord (g.members.headD 0) g.pc = (.word w, t)) (h : Unassigned (w.toNat / 2 ^ 56)) :
    ∃ u, s.slotFetch c g = .error u ∧ (u.co c).grp = none ∧ u.mem = s.mem ∧
      ∀ m ∈ g.members, Trapped (s.th m) (u.th m) (s.original m g.pc) cIllOp w g.pc := by
  have fetched : Fetched s t := by
    have := s.fetchWord_fetched (g.members.headD 0) g.pc
    rwa [hw] at this
  have keys : (g.members.map fun m => (m, cIllOp, w)).map (·.1) = g.members := (List.map_map ..).trans (List.map_id _)
  obtain ⟨only, taken⟩ := t.slotTrap_trapped c g (g.members.map fun m => (m, cIllOp, w)) (keys.symm ▸ hn) fun x hx => by
    obtain ⟨m, member, rfl⟩ := List.mem_map.mp hx
    rw [fetched.resident, fetched.th]
    exact hm m member
  refine ⟨_, State.slotFetch_illOp hw h, ?_, ?_, fun m hx => ?_⟩
  · rw [only.co, State.endGroup, State.modCo_co]
  · exact only.mem.trans fetched.mem
  · have := taken _ (List.mem_map_of_mem hx)
    rwa [State.origTval_illOp, fetched.th, fetched.original] at this

/-- Settles O60: the core's move ends in the trap of the slot, which every member takes; the deferrals that end before it and the fetch leave
all that the exception saves of a thread. -/
theorem unassignedOpcodes : Obligations.UnassignedOpcodes := by
  intro s rest c g pk t w ha hb hr hturn hn hm hw hop
  have same (m : Nat) : (((s.popped rest).turnTo c g pk).th m).unplaced = (s.th m).unplaced := State.turnTo_unplaced _ c g pk m
  obtain ⟨u, hu, hgrp, hmem, taken⟩ := State.slotFetch_unassigned (s := (s.popped rest).turnTo c g pk) (c := c) hn
    (fun m hx => by
      obtain ⟨hres, hinh⟩ := hm m hx
      rw [State.turnTo_resident]
      exact ⟨hres, (Thr.inh_of_unplaced (same m)).trans hinh⟩)
    hw (hop _ rfl)
  refine ⟨u, (step_turns ha hb hr hturn).trans (by rw [hu]), hgrp, hmem.trans (State.turnTo_mem _ c g pk), fun m hx => ?_⟩
  have := trapped_of_unplaced (same m) (taken m hx)
  rwa [State.turnTo_original] at this

end Sys2Proof.Machine

/-!
PROOF. The register words of a schedule (R379), and what their statement rests on: the slot whose schedule an engine runs, what a word leaves of
it, and the registers of a slot.
-/
namespace Sys2Proof.Machine

/-! ### A word that changes its slot only -/

theorem slotIs_refl {s : State} {n : Nat} {x : TSlot} (h : s.sl n = x) : SlotIs s s n x := ⟨rfl, h, fun _ _ => rfl⟩

theorem slotIs_setSl {s t : State} {n : Nat} {x : TSlot} (h : SlotIs s t n x) (y : TSlot) : SlotIs s (t.setSl n y) n y := by
  obtain ⟨same, -, others⟩ := h
  refine ⟨?_, t.setSl_sl n y, fun m hm => (t.setSl_sl_ne n y hm).trans (others m hm)⟩
  show ({ t with slot := _ } : State) = _
  rw [same]; rfl

/-- The program counter of a slot that is not Faulted moves, and nothing else of the slot. -/
theorem slotIs_tPc {s t : State} {n p : Nat} {x : TSlot} {off : Int} (h : SlotIs s t n x) (hst : x.st ≠ 7) (hp : (p : Int) = x.pc + off) :
    SlotIs s (t.tPc n off) n { x with pc := p } := by
  have ⟨_, hx, _⟩ := h
  have moved : t.tPc n off = t.setSl n { x with pc := p } := by
    rw [State.tPc, State.modSl, hx, if_neg hst, ← hp, Int.toNat_natCast]
  exact moved ▸ slotIs_setSl h _

/-! ### What a word comes to on the slot of its engine -/

theorem Leads.imp {o : Host.Outcome State Fault Refusal} {p q : State → Prop} (h : Leads o p) (k : ∀ t, p t → q t) : Leads o q := by
  obtain ⟨t, ht, hp⟩ := h
  exact ⟨t, ht, k t hp⟩

theorem runTruss_next {f : Nat → TSlot → State → TRes} {s t : State} {n : Nat} {x : TSlot} (h : TrussAt s n x) (hf : f n x s = .next t) :
    runTruss f s = .next (t.tPc n 1) := by
  obtain ⟨on, rfl, -, -⟩ := h
  rw [runTruss, on]; dsimp only; rw [hf]

theorem runTruss_fault {f : Nat → TSlot → State → TRes} {s t : State} {n reason va : Nat} {wr : Bool} {x : TSlot} (h : TrussAt s n x)
    (hf : f n x s = .fault t reason va wr) : runTruss f s = .next (t.tFault n reason 0 va wr) := by
  obtain ⟨on, rfl, -, -⟩ := h
  rw [runTruss, on]; dsimp only; rw [hf]

/-- A word that leaves its slot in use and goes on stands at the next word. -/
theorem leads_slotIs {f : Nat → TSlot → State → TRes} {s t : State} {n : Nat} {x y : TSlot} (h : TrussAt s n x) (hf : f n x s = .next t)
    (is : SlotIs s t n y) (hst : y.st ≠ 7) : Leads (runTruss f s) fun t => SlotIs s t n { y with pc := y.pc + 1 } :=
  ⟨_, runTruss_next h hf, slotIs_tPc is hst (by omega)⟩

theorem State.slotDown_faultedBy (s : State) (n reason : Nat) : FaultedBy (s.slotDown n reason) n reason := by
  unfold State.slotDown FaultedBy
  simp only [State.setSl_sl, and_self]

/-- A fault of a slot makes it Faulted with its reason (R388), whatever becomes of the fault's record. -/
theorem State.tFault_faultedBy (s : State) (n reason nak va : Nat) (wr : Bool) : FaultedBy (s.tFault n reason nak va wr) n reason := by
  unfold State.tFault FaultedBy
  simp only [State.modSl_sl]
  exact State.slotDown_faultedBy _ n reason

theorem leads_faultedBy {f : Nat → TSlot → State → TRes} {s t : State} {n reason va : Nat} {wr : Bool} {x : TSlot} (h : TrussAt s n x)
    (hf : f n x s = .fault t reason va wr) : Leads (runTruss f s) fun t => FaultedBy t n reason :=
  ⟨_, runTruss_fault h hf, State.tFault_faultedBy ..⟩

/-! ### The registers of a slot -/

theorem TSlot.setG_getD (x : TSlot) (d : BitVec 4) (v : DWord) (k : Nat) :
    (x.setG d v).g.getD k 0 = if k = d.toNat then v else x.g.getD k 0 := by
  split_ifs with h
  · exact h ▸ getD_setAt_same 0 x.g d.toNat v
  · exact getD_setAt_ne 0 x.g v h

/-- A word that writes one register of its slot and goes on leaves all else. -/
theorem leads_setsG {f : Nat → TSlot → State → TRes} {s : State} {n : Nat} {x : TSlot} {d : BitVec 4} {v : DWord} (h : TrussAt s n x)
    (hf : f n x s = .next (s.setSl n (x.setG d v))) : Leads (runTruss f s) fun t => SetsG s t n x d v := by
  have ⟨_, hx, hst, _⟩ := h
  have inUse : (x.setG d v).st ≠ 7 := show x.st ≠ 7 by omega
  obtain ⟨t, ht, is⟩ := leads_slotIs h hf (slotIs_setSl (slotIs_refl hx) _) inUse
  exact ⟨t, ht, (x.setG d v).g, is, fun k _ => x.setG_getD d v k⟩

/-! ### The values of the register words (R379) -/

/-- The remainder that `PEER` takes fits its register. -/
theorem toNat_ofNat_emod {a : Int} {size : Nat} (pos : 0 < size) (small : size < 2 ^ 64) :
    ((BitVec.ofNat 64 (a % size).toNat).toNat : Int) = a % size := by
  have low : 0 ≤ a % (size : Int) := Int.emod_nonneg a (by omega)
  have high : a % (size : Int) < size := Int.emod_lt_of_pos a (by omega)
  rw [BitVec.toNat_ofNat, Nat.mod_eq_of_lt (by omega), Int.toNat_of_nonneg low]

/-- At an index from 0 to 36 `PARAM` reads a value, the one that its rule gives. -/
theorem State.tParam_paramAt (s : State) (n : Nat) (x : TSlot) {i : Int} (low : 0 ≤ i) (high : i ≤ 36) :
    ∃ v, s.tParam n x i = some v ∧ paramAt s n x i v := by
  unfold State.tParam
  split
  · next h => exact ⟨_, rfl, .inl ⟨h.1, h.2, rfl⟩⟩
  split
  · next h => exact ⟨_, rfl, .inr (.inl ⟨h, rfl⟩)⟩
  split
  · next h => exact ⟨_, rfl, .inr (.inr (.inl ⟨h, rfl⟩))⟩
  split
  · next h => exact ⟨_, rfl, .inr (.inr (.inr (.inl ⟨h, rfl⟩)))⟩
  split
  · next h => exact ⟨_, rfl, .inr (.inr (.inr (.inr (.inl ⟨h, rfl⟩))))⟩
  split
  · next h => exact ⟨_, rfl, .inr (.inr (.inr (.inr (.inr ⟨h, rfl⟩))))⟩
  · omega

theorem State.tParam_none (s : State) (n : Nat) (x : TSlot) {i : Int} (h : i < 0 ∨ 36 < i) : s.tParam n x i = none := by
  simp (disch := omega) only [State.tParam, if_neg]

/-- Settles O28: each word writes one register and goes on (`leads_setsG`); what differs from word to word is the value written, which the model
computes on machine words and the rule on integers. -/
theorem trussRegisterWords : Obligations.TrussRegisterWords := by
  intro s n x h
  have ⟨_, hx, hst, _⟩ := h
  refine ⟨fun f => ?nop, fun f => ?movi, fun f => ?addi, fun f => ?add, fun f => ?muli, fun f pos small => ?peer, fun f low high => ?param,
    fun f outside => ?badParam⟩
  case nop =>
    show Leads (execTrussNop f s) _
    exact leads_slotIs h rfl (slotIs_refl hx) (by omega)
  case movi =>
    show Leads (execTrussMovi f s) _
    exact leads_setsG h rfl
  case addi =>
    show Leads (execTrussAddi f s) _
    rw [BitVec.ofInt_add, BitVec.ofInt_toInt]
    exact leads_setsG h rfl
  case add =>
    show Leads (execTrussAdd f s) _
    rw [BitVec.ofInt_add, BitVec.ofInt_toInt, BitVec.ofInt_toInt]
    exact leads_setsG h rfl
  case muli =>
    show Leads (execTrussMuli f s) _
    rw [BitVec.ofInt_mul, BitVec.ofInt_toInt]
    exact leads_setsG h rfl
  case peer =>
    show Leads (execTrussPeer f s) _
    exact (leads_setsG h rfl).imp fun _ sets => ⟨_, sets, toNat_ofNat_emod pos small⟩
  case param =>
    obtain ⟨v, read, isParam⟩ := s.tParam_paramAt n x low high
    show Leads (execTrussParam f s) _
    exact (leads_setsG h (by simp only [read])).imp fun _ sets => ⟨v, sets, isParam⟩
  case badParam =>
    have noValue := s.tParam_none n x outside
    show Leads (execTrussParam f s) _
    exact leads_faultedBy (t := s) (va := 0) (wr := false) h (by simp only [noValue])

end Sys2Proof.Machine
